-- ==== Sys2Proof/Word.lean ====
section
/-! DEFINITION. The words the part counts and compares in: bytes, 16-bit and 32-bit quantities, frame numbers and the
numbers of stations, resources and lines. -/

namespace Sys2Proof

abbrev Byte := BitVec 8
abbrev Half := BitVec 16
abbrev Word := BitVec 32

/-- A frame number: 32 bits, wrapping (00_scope.md, Conventions). -/
abbrev Frame := BitVec 32

/-- An item id (R8): any 16-bit value. -/
abbrev ItemId := BitVec 16

/-- A station number, 0 to 31. -/
abbrev StationNo := Fin 32

end Sys2Proof
end

