-- ==== Sys2Proof/Config.lean ====
section
/-! DEFINITION. The free values: what the spec lets the part answer without saying what it answers. They have no body, so
no proof can know one. -/

namespace Sys2Proof.Config

/-- Log 7. What a flag or presence byte of a TAKE, a TAKE request or a READY means when it is neither 0 nor 1: chapter 12
lists only those two values and no rule discards a message that carries another. -/
opaque flagByte : BitVec 8 → Bool

/-- Log 8. The byte that stands in a notice for the value number `v` of the enumeration number `e`, where chapter 12 gives
the enumeration no codes (the causes, reasons, results and states that only notices carry). -/
opaque enumCode : Nat → Nat → BitVec 8

/-- Log 29. The 32 bits of the jam (R133): no rule gives the pattern. -/
opaque jamPattern : BitVec 32

end Sys2Proof.Config
end

