-- ==== Sys2Proof/Syntax.lean ====
section
/-! DEFINITION. The commands of the part, one constructor for each row of the opcode table, with the operands a command
brings from outside: real time passed, pin levels, bytes received, bytes written by the host. -/

namespace Sys2Proof

/-- The levels of the seven strap pins (R146). -/
structure Straps where
  number : StationNo
  timeCapable : Bool
  directorCapable : Bool
  deriving DecidableEq, Repr

/-- The blocks that act on a frame pulse. -/
inductive Block
  | timebase | roster | sync | pair | scheduler | output | timing | line
  deriving DecidableEq, Repr

/-- What a frame pulse brings: the real time passed since the last command that carried one (log 1), the levels of the four
ready inputs (R103), and the order in which the blocks act on the pulse, which the spec leaves open (log 2). -/
structure Pulse where
  dt : Nat
  pressed : Vector Bool 4
  order : List Block
  deriving DecidableEq, Repr

/-- One reception as the line gives it (R138): the bytes that followed the start delimiter up to the end of the expected
length or the line falling idle, and whether activity went on past the expected length. -/
structure Reception where
  bytes : List Byte
  overrun : Bool
  deriving DecidableEq, Repr

/-- What a command brings of a write transfer of the host (R193): all of it at one moment, its beginning up to the location code, or its
end, at the release of the select input. `b` is the byte that followed the code. -/
inductive WriteStretch
  | whole (b : Byte)
  | begins
  | ends (b : Byte)
  deriving DecidableEq, Repr

/-- What a command brings of a notice read (R197), whose last byte counts apart from its end. One at one moment ran to it or
not. -/
inductive ReadStretch
  | whole (toLastByte : Bool)
  | begins | lastByte | ends
  deriving DecidableEq, Repr

/-- The commands. `dt` is the real time, in thirds of a nanosecond, that has passed since the last command that carried one;
`idle` is the number of bit times for which the line has been idle, 0 while it is busy. A port status
read is its beginning, where it has all its effect (R198); an invalid transfer is its end. -/
inductive Instr
  | resetPin
  | resetEnd (pins : Straps)
  | referencePulse (p : Pulse)
  | refLost (p : Pulse)
  | flywheelPulse (p : Pulse)
  | silence
  | acquireTimeout
  | holdoverExpired
  | recoveryEnds (resource : Fin 16)
  | scan (dt : Nat)
  | itemEndCancel
  | shadowRecordsExpire
  | pipStarts (dt : Nat) (line : Fin 2)
  | pipEnds (dt : Nat) (line : Fin 2)
  | warnPoint
  | expiryPoint
  | endingRecordDropped
  | peerAbsent (peer : StationNo)
  | founded
  | askWaitExpires
  | askRetryExpires
  | responseWaitExpires
  | gapTimeout
  | yieldFailed
  | markCapture (dt : Nat)
  | transmitAttempt (dt idle : Nat)
  | collision (dt : Nat)
  | backoffExpires (dt idle : Nat)
  | transmissionComplete (dt : Nat)
  | receiveOrderedMessage (dt : Nat) (rx : Reception)
  | receiveMark (dt : Nat) (rx : Reception)
  | receivePresence (dt : Nat) (rx : Reception)
  | receiveAsk (dt : Nat) (rx : Reception)
  | receivePartOpening (dt : Nat) (rx : Reception)
  | receivePart (dt : Nat) (rx : Reception)
  | receiveReady (dt : Nat) (rx : Reception)
  | receiveRelay (dt : Nat) (rx : Reception)
  | receiveYield (dt : Nat) (rx : Reception)
  | badReception (dt : Nat) (rx : Reception)
  | storeGrant
  | insert
  | delete
  | move
  | amend
  | addCue
  | dropCue
  | setOut
  | revive
  | standby (dt : Nat)
  | take (dt : Nat)
  | hold (dt : Nat)
  | resume (dt : Nat)
  | skip (dt : Nat)
  | close (dt : Nat)
  | freezeCopy
  | partRead
  | partWrite
  | shadowCheck
  | bankSwap
  | rearmRead (dt : Nat)
  | takeoverRead (dt : Nat)
  | projectionRead
  | itemReadComplete
  | orderReadComplete
  | requestWrite (length : WriteStretch) (bytes : List Byte)
  | noticeRead (part : ReadStretch)
  | portStatusRead
  | portControlWrite (enables : WriteStretch)
  | invalidTransfer (first : Byte) (rest : List Byte)
  | configure (dt : Nat)
  | restart (pins : Straps)
  | propose
  | standbyRequest
  | takeRequest
  | holdRequest
  | resumeRequest
  | skipRequest
  | closeRequest
  | yieldRequest
  | relayRequest
  | readItem
  | readOrder
  | readPeer
  | readTiming
  | readArmed
  | unknownRequest
  deriving DecidableEq, Repr

end Sys2Proof
end

