-- ==== Sys2Proof/Machine/Types.lean ====
section
/-! DEFINITION. The records the blocks hold and exchange: replica, items and cues (chapter 1), messages (chapters 2, 7, 12),
entries and resources (chapter 4), sequences (chapter 5), timer records (chapter 6), roster entries (chapter 8) and the
notices (chapter 11). Where the spec ties fields to a kind or a state, the kind or state carries them. -/

namespace Sys2Proof.Machine

/-! ## The replica (chapter 1) -/

/-- Length and short length of a FIRE or LIGHT cue (R14). -/
structure Lengths where
  full : Half
  short : Option Half
  deriving DecidableEq, Repr

/-- The fields of a cue that its kind fixes (R14). -/
inductive CueBody
  | fire (resource : Fin 16) (hard : Bool) (lengths : Option Lengths)
  | light (line : Fin 8) (lengths : Option Lengths)
  | pips (line : Fin 2) (count : Nat)
  | marker
  deriving DecidableEq, Repr

/-- A cue record (R13, R14). `offset` is in two's complement. -/
structure Cue where
  slot : Fin 16
  owner : StationNo
  body : CueBody
  offset : Half
  param : Half
  deriving DecidableEq, Repr

/-- The timing fields of an ON_AIR item (R10, R11). -/
structure Airing where
  start : Frame
  short : Bool
  holdTotal : Word
  heldAt : Option Frame
  deriving DecidableEq, Repr

/-- Item state with the timing fields it makes present (R10). -/
inductive ItemStatus
  | pending
  | standingBy
  | onAir (airing : Airing)
  | done (start : Frame) (short : Bool) (holdTotal : Word) (endFrame : Frame) (actual : Word)
  | skipped
  deriving DecidableEq, Repr

/-- An item record (R9 to R12). -/
structure Item where
  id : ItemId
  slug : List Byte
  planned : BitVec 24
  short : Option (BitVec 24)
  float : Bool
  fixed : Bool
  planShort : Bool
  status : ItemStatus
  cues : List Cue
  deriving DecidableEq, Repr

/-- A replica: header and item list (R1). -/
structure Replica where
  version : Word
  airCount : Word
  hardOut : Option Frame
  check : Word
  items : List Item
  deriving DecidableEq, Repr

/-- The replica summary (R6). -/
structure Summary where
  version : Word
  airCount : Word
  check : Word
  deriving DecidableEq, Repr

/-- The use of SHADOW (R15). -/
inductive ShadowUse
  | empty | copying | frozen | assembling
  deriving DecidableEq, Repr

/-! ## Modes -/

inductive RunState
  | reset | start | run
  deriving DecidableEq, Repr

inductive PairMode
  | none | main | backup
  deriving DecidableEq, Repr

inductive Role
  | solo | active | standby
  deriving DecidableEq, Repr

inductive StepState
  | joining | inStep | outOfStep | catchingUp
  deriving DecidableEq, Repr

inductive LockState
  | free | acquiring | locked | holdover
  deriving DecidableEq, Repr

/-! ## Messages (chapters 2, 7, 12) -/

/-- The air messages less their air count (R42). -/
inductive AirMsg
  | standby (item : ItemId)
  | take (item : ItemId) (frame : Frame) (short : Bool)
  | hold (frame : Frame)
  | resume (frame : Frame)
  | skip (item : ItemId)
  | close (frame : Frame)
  deriving DecidableEq, Repr

/-- An EDIT (R29), its operations as the bytes received. -/
structure EditMsg where
  base : Word
  proposer : Byte
  tag : Half
  count : Byte
  ops : List Byte
  deriving DecidableEq, Repr

/-- An ordered message as received. -/
inductive Ordered
  | edit (m : EditMsg)
  | air (count : Word) (m : AirMsg)
  deriving DecidableEq, Repr

/-- The contents of a PRESENCE (R152). -/
structure Presence where
  timeCapable : Bool
  directorCapable : Bool
  referencePresent : Bool
  source : Bool
  sending : Bool
  pairMode : PairMode
  partner : Option StationNo
  role : Role
  step : StepState
  lock : LockState
  summary : Summary
  doneThrough : Option Frame
  deriving DecidableEq, Repr

/-- The message kinds (R129), in the order of their codes 1 to 14. -/
inductive Kind
  | mark | standby | take | hold | resume | skip | close | yield | presence | edit | ask | ready | relay | part
  deriving DecidableEq, Repr

/-- The transmit classes (R129). -/
inductive TxClass
  | urgent | routine | bulk
  deriving DecidableEq, Repr

/-- A message to be sent. The frame of a MARK and the air count of an air message are written at each attempt. -/
inductive OutMsg
  | mark (frame : Frame)
  | air (count : Word) (m : AirMsg)
  | yield (partner : StationNo)
  | presence (c : Presence)
  | edit (m : EditMsg)
  | ask
  | ready (line : Fin 8) (item : Option ItemId)
  | relay (dest : Byte) (data : List Byte)
  | part (number : Nat) (content : List Byte)
  deriving DecidableEq, Repr

/-- Why a message left its queue uncompleted (R135, R205). -/
inductive FailReason
  | attempts | muted | notInStep
  deriving DecidableEq, Repr

/-- A message in a transmit queue with its attempt count (R130); `withdrawn` marks a transmitting message whose withdrawal
waits for the end of its attempt (R137). -/
structure TxMsg where
  msg : OutMsg
  attempts : Nat
  withdrawn : Bool
  deriving DecidableEq, Repr

/-! ## Configuration (R149) -/

structure ResourceParams where
  group : Fin 4
  autoRelease : Bool
  mirror : Bool
  preroll : Byte
  advance : Nat
  repeatGap : Byte
  recovery : Byte
  deriving DecidableEq, Repr

structure Cfg where
  rate : Fin 6
  groups : BitVec 64
  resources : Vector ResourceParams 16
  groupGaps : Vector Byte 4
  warnLeads : Vector Byte 8
  readyMap : Vector (Option (Fin 8)) 4
  tones : Vector Nat 2
  wrapLine : Option (Fin 8)
  wrapLead : Half
  pairMode : PairMode
  partner : Option StationNo
  deriving DecidableEq, Repr

/-! ## The cue schedule (chapter 4) -/

/-- One pip of a count-in: its frame, and whether it is the long one (R106). -/
structure Pip where
  frame : Frame
  long : Bool
  deriving DecidableEq, Repr

inductive EntryState
  | armed | prepared | running | held
  deriving DecidableEq, Repr

/-- The flags of an entry (R75). -/
structure EntryFlags where
  late : Bool := false
  joined : Bool := false
  shortPreroll : Bool := false
  deferred : Bool := false
  trimmed : Bool := false
  cut : Bool := false
  shadow : Bool := false
  deriving DecidableEq, Repr

/-- An entry of the armed table (R73). `basis` is the item's status the frames were computed under; `warn` is the warn frame
of a LIGHT entry; `kept` are the kept pips of a PIPS entry; `previous` is present while HELD; `withheld` is R188's mark. -/
structure Entry where
  item : ItemId
  cue : Cue
  length : Option Half
  basis : ItemStatus
  planned : Option Frame
  fire : Option Frame
  deferral : Nat
  prepare : Option Frame
  preparedAt : Option Frame
  warn : Option Frame
  notified : Bool
  endFrame : Option Frame
  state : EntryState
  previous : Option EntryState
  flags : EntryFlags
  joinOffset : Option Word
  kept : List Pip
  withheld : Bool
  deriving DecidableEq, Repr

/-- The name of an entry: item id and slot (R72). -/
abbrev EntryKey := ItemId × Fin 16

inductive ResourceState
  | idle | prepared | busy | recovering
  deriving DecidableEq, Repr

/-- The state part of a resource table entry (R76). -/
structure Resource where
  state : ResourceState
  holder : Option EntryKey
  lastFire : Option Frame
  recoveryUntil : Option Frame
  deriving DecidableEq, Repr

/-- A shadow record (R189). The cue copy gives slot, kind, resource and parameter; `mirror` is the resource's mirror mark. -/
structure ShadowRec where
  item : ItemId
  cue : Cue
  mirror : Bool
  fire : Frame
  endFrame : Option Frame
  key : Frame
  length : Option Half
  flags : EntryFlags
  deriving DecidableEq, Repr

/-! ## Presenter cues (chapter 5) -/

/-- Held state of a light line, or a claim on it (R99, R100). -/
inductive Light
  | off | flash | on
  deriving DecidableEq, Repr

/-- The kept pip that sounds, and the moment it began (R107, R108). -/
structure Sounding where
  pip : Pip
  since : Nat
  deriving DecidableEq, Repr

/-- What a playing sequencer holds (R108): the kept pips, those of them not yet started, both in order, and the one sounding.
`withdrawn` marks a sequence withdrawn, or whose stop frame passed, while time was not usable: its sounding pip completes. -/
structure Playing where
  item : ItemId
  slot : Fin 16
  count : Nat
  fire : Frame
  kept : List Pip
  waiting : List Pip
  stop : Option Frame
  sounding : Option Sounding
  withdrawn : Bool
  deriving DecidableEq, Repr

/-! ## Timing (chapter 6) -/

/-- A timer record (R116); the ending item's record has an end frame. -/
structure TimerRec where
  item : ItemId
  start : Frame
  holdTotal : Word
  heldAt : Option Frame
  used : BitVec 24
  endFrame : Option Frame
  deriving DecidableEq, Repr

/-- The projection record (R120). -/
structure Projection where
  onAir : Option TimerRec
  remaining : Nat
  hardOut : Option Frame
  deriving DecidableEq, Repr

inductive Sign
  | over | under | absent
  deriving DecidableEq, Repr

/-! ## Roster (chapter 8) -/

/-- A roster entry (R153). Cleared contents are absent. -/
structure PeerEntry where
  present : Bool
  contents : Option Presence
  lastHeard : Option Frame
  silence : Nat
  deriving DecidableEq, Repr

/-! ## The line record (R144) -/

structure LineRecord where
  collisions : Nat := 0
  presenceGivenUp : Nat := 0
  markGivenUp : Nat := 0
  partGivenUp : Nat := 0
  presenceSkipped : Nat := 0
  markSkipped : Nat := 0
  fragments : Nat := 0
  headerFailures : Nat := 0
  messageFailures : Nat := 0
  destinationDiscards : Nat := 0
  formDiscards : Nat := 0
  deriving DecidableEq, Repr

/-! ## Results, causes and reasons -/

/-- Results of EDIT and air messages (R41, R49). -/
inductive Result
  | applied
  | stale | noItem | noAnchor | duplicateId | itemsFull | cuesFull | itemCuesFull | slotTaken | noCue | lockedItem | badValue
  | wrongState | tooEarly | notOnAir | alreadyHeld | notHeld | fixedItem
  deriving DecidableEq, Repr

/-- Causes of a LOCK notice (R70). -/
inductive LockCause
  | refLost | refReturned | markLoad | acquired | reacquire | slip | relocked | silence | acquireTimeout | holdoverExpired
  | elected | yielded | ineligible
  deriving DecidableEq, Repr

/-- Causes of a CANCEL notice (R91). -/
inductive CancelCause
  | itemEnd | stoodDown | skipped | edited | adoption | prepareWithdrawn
  deriving DecidableEq, Repr

inductive MissReason
  | tableFull | tooLate
  deriving DecidableEq, Repr

inductive ConflictReason
  | repeatGap | span | groupGap | deferLimit | wrapLine | pipsOverlap
  deriving DecidableEq, Repr

/-- Reasons a catch-up is abandoned (R175). -/
inductive AbandonReason
  | heldOverflow | order | overrun | badPart | gapTimeout | check | possibleLoss | partLost
  deriving DecidableEq, Repr

/-- Causes of a STEP notice with the further fields each carries (R177). -/
inductive StepCause
  | joinMatch (reference : StationNo) (summary : Summary)
  | joinMismatch (reference : StationNo) (summary : Summary)
  | founded
  | queueFull
  | gap (kind : Kind) (carried : Word)
  | possibleLoss
  | mismatch (reference : StationNo) (summary : Summary)
  | asked
  | stream (source : StationNo)
  | askFailed
  | abandoned (reason : AbandonReason) (source : Option StationNo) (written : Nat) (count : Option Nat)
  | adopted (source : Option StationNo) (heldEntries : Nat)
  | refounded
  deriving DecidableEq, Repr

/-- Causes of a role change or of a block (R181, R182, R183, R186). -/
inductive RoleCause
  | partnerAbsent | partnerUnfit | preferred | yieldReceived | yielded | doubledUnfit | doubledNumber | muted
  deriving DecidableEq, Repr

/-- Why a READY message was not queued (R104). -/
inductive ReadyRefusal
  | standby | muted | queueFull
  deriving DecidableEq, Repr

/-- Reasons of REQ_REFUSED (R204). -/
inductive RefuseReason
  | badRequest | notInStart | notConfigured | muted | notInStep | notDirector | notLocked | notPaired | notActive | queueFull
  deriving DecidableEq, Repr

/-- The field a refused CONFIGURE names (R149, R150), with its index where it has one. -/
inductive CfgField
  | length | rate | resource (r : Fin 16) | warnLead (l : Fin 8) | readyMap (i : Fin 4) | pipTone (l : Fin 2) | wrap | pair
  deriving DecidableEq, Repr

/-- The request kinds (R209), in the order of their codes 1 to 16. -/
inductive ReqKind
  | configure | restart | propose | standby | take | hold | resume | skip | close | yield | relay
  | readItem | readOrder | readPeer | readTiming | readArmed
  deriving DecidableEq, Repr

/-- The further fields of a REQ_REFUSED by request kind (R204). -/
inductive RefuseDetail
  | none
  | propose (base : Option Word) (tag : Option Half)
  | configure (field : Option CfgField)
  | item (id : Option ItemId)
  | argument (bytes : List Byte)
  deriving DecidableEq, Repr

/-! ## Notices (R205) -/

/-- What a LOCK notice carries (R70). `also` is the second cause of R67's double notice. -/
structure LockNotice where
  cause : LockCause
  also : Option LockCause
  lock : LockState
  source : Bool
  refLost : Bool
  followed : Option StationNo
  counter : Frame
  correction : Word
  slipCount : Nat
  lastSlip : Option (Word × Frame)
  sender : Option StationNo
  deriving DecidableEq, Repr

/-- What a TIMING notice carries (R119). -/
structure TimingNotice where
  item : ItemId
  start : Frame
  endFrame : Frame
  used : BitVec 24
  actual : Word
  holdTotal : Word
  onAir : Word
  difference : Word
  byTake : Bool
  deriving DecidableEq, Repr

/-- The on-air or ending item of a TIMING_REPLY with its elapsed time (R123). -/
structure TimedItem where
  record : TimerRec
  elapsed : Word
  deriving DecidableEq, Repr

structure TimingReply where
  now : Frame
  onAir : Option TimedItem
  ending : Option TimedItem
  wrapClaim : Light
  wrapItem : Option ItemId
  projectedEnd : Frame
  remaining : Nat
  hardOut : Option Frame
  overUnder : Option Word
  sign : Sign
  readPending : Bool
  deriving DecidableEq, Repr

/-- ARMED_REPLY (R203). -/
structure ArmedReply where
  count : Nat
  entry : Option Entry
  lights : Vector (Light × Bool) 8
  pips : Vector (Option EntryKey) 2
  deriving DecidableEq, Repr

/-- The notices with what each carries (R205). SEND_FAILED (R135) and AIR_DONE (R49) carry the message they speak of, which
names its kind, destination and own fields. -/
inductive Notice
  | prepare (item : ItemId) (slot : Fin 16) (resource : Fin 16) (fire : Option Frame) (param : Half)
  | fire (item : ItemId) (slot : Fin 16) (resource : Option (Fin 16)) (fire : Frame) (length : Option Half)
      (flags : EntryFlags) (deferral : Option Nat) (joinOffset : Option Word) (param : Half)
  | ended (item : ItemId) (slot : Fin 16) (resource : Fin 16) (endFrame : Frame) (param : Half) (cut : Bool)
  | free (resource : Fin 16) (item : ItemId) (slot : Fin 16) (param : Half)
  | cancel (item : ItemId) (cue : Cue) (cause : CancelCause) (notified running released : Bool)
  | missed (item : ItemId) (cue : Cue) (reason : MissReason) (fire : Option Frame) (lateness : Option Word)
  | conflict (item : ItemId) (cue : Cue) (reason : ConflictReason) (planned : Option Frame) (released : Bool)
  | lock (n : LockNotice)
  | step (new old : StepState) (cause : StepCause) (summary : Summary)
  | role (new old : Role) (cause : RoleCause) (frame : Frame) (partner : Option StationNo) (partnerPresent : Bool)
      (doneThrough : Option Frame)
  | editDone (proposer : Byte) (tag : Half) (result : Result) (index : Nat) (version : Word) (inserted : List ItemId)
  | airDone (source : StationNo) (m : AirMsg) (item : Option ItemId) (result : Result) (airCount : Word)
  | timing (n : TimingNotice)
  | backtime (sign : Sign) (overUnder : Option Word) (projectedEnd : Frame) (hardOut : Option Frame) (now : Frame) (byFrame : Bool)
  | peer (number : StationNo) (present : Bool) (frame : Frame) (contents : Option Presence)
  | ready (input : Fin 4) (line : Fin 8) (item : Option ItemId) (frame : Frame) (refusal : Option ReadyRefusal)
  | peerReady (source : StationNo) (line : Byte) (item : Option ItemId)
  | relayIn (source : StationNo) (dest : Byte) (payload : List Byte)
  | takeoverBlocked (cause : RoleCause) (present : Bool) (role : Option Role) (notInStep notUsable muted : Bool)
  | yieldFailed (partner : Option StationNo) (present : Bool) (role : Option Role)
  | configDone (number : StationNo) (timeCapable directorCapable : Bool) (mode : PairMode) (pair : Option StationNo) (role : Role)
  | sendFailed (m : OutMsg) (reason : FailReason)
  | reqRefused (kind : Option ReqKind) (reason : RefuseReason) (detail : RefuseDetail)
  | itemReply (summary : Summary) (item : Option Item)
  | orderReply (summary : Summary) (ids : List ItemId)
  | peerReply (entry : PeerEntry)
  | ownReply (lastSent : Option (Frame × Presence)) (now : Presence) (record : LineRecord)
  | timingReply (r : TimingReply)
  | armedReply (r : ArmedReply)
  deriving DecidableEq, Repr

/-- What the last read transfer gave the host (R197, R198), with the bytes it carried: nothing yet, a length of 0, a notice
behind its length, or the 24 bytes of port status. -/
inductive ReadOut
  | none
  | empty (bytes : List Byte)
  | notice (n : Notice) (bytes : List Byte)
  | status (bytes : List Byte)
  deriving DecidableEq, Repr

end Sys2Proof.Machine
end

