-- ==== Sys2Proof/Machine/Codec.lean ====
section
/-! DEFINITION. Byte order, the two checks, and the byte layouts of chapter 12 on the line and in the canonical
serialization (R127, R207, R208). -/

namespace Sys2Proof.Machine

/-! ## Numbers as bytes: least significant byte first (chapter 12) -/

def byteOf (n : Nat) : Byte := BitVec.ofNat 8 n

def boolByte (b : Bool) : Byte := if b then 1 else 0

def le16 (x : Half) : List Byte := [x.extractLsb' 0 8, x.extractLsb' 8 8]
def le24 (x : BitVec 24) : List Byte := [x.extractLsb' 0 8, x.extractLsb' 8 8, x.extractLsb' 16 8]
def le32 (x : Word) : List Byte :=
  [x.extractLsb' 0 8, x.extractLsb' 8 8, x.extractLsb' 16 8, x.extractLsb' 24 8]

def rd8 : List Byte → Option (Byte × List Byte)
  | b :: r => some (b, r)
  | [] => none

def rd16 : List Byte → Option (Half × List Byte)
  | a :: b :: r => some (b ++ a, r)
  | _ => none

def rd24 : List Byte → Option (BitVec 24 × List Byte)
  | a :: b :: c :: r => some (c ++ b ++ a, r)
  | _ => none

def rd32 : List Byte → Option (Word × List Byte)
  | a :: b :: c :: d :: r => some (d ++ c ++ b ++ a, r)
  | _ => none

/-- The first `n` bytes and the rest, where there are that many. -/
def rdN (n : Nat) (bs : List Byte) : Option (List Byte × List Byte) :=
  if n ≤ bs.length then some (bs.take n, bs.drop n) else none

/-! ## The two checks -/

/-- One bit of the 8-bit check, generator x^8 + x^2 + x + 1, bytes entered least significant bit first (R207; log 6). -/
def crc8Bit (r : Byte) : Byte := if r.getLsbD 0 then (r >>> 1) ^^^ 0xE0 else r >>> 1

def crc8Byte (r b : Byte) : Byte :=
  let x := r ^^^ b
  crc8Bit (crc8Bit (crc8Bit (crc8Bit (crc8Bit (crc8Bit (crc8Bit (crc8Bit x)))))))

/-- The header check (R127, R207): preset to all ones, sent uncomplemented. -/
def crc8 (bs : List Byte) : Byte := bs.foldl crc8Byte 0xFF

/-- One bit of the 32-bit check, generator 04C11DB7, bytes entered least significant bit first (R127; log 6). -/
def crc32Bit (r : Word) : Word := if r.getLsbD 0 then (r >>> 1) ^^^ 0xEDB88320 else r >>> 1

def crc32Byte (r : Word) (b : Byte) : Word :=
  let x := r ^^^ b.setWidth 32
  crc32Bit (crc32Bit (crc32Bit (crc32Bit (crc32Bit (crc32Bit (crc32Bit (crc32Bit x)))))))

/-- The message check and the check word (R127, R208): preset to all ones, complemented at the end. -/
def crc32 (bs : List Byte) : Word := ~~~ (bs.foldl crc32Byte 0xFFFFFFFF)

/-! ## Codes of chapter 12 -/

def PairMode.code : PairMode → Byte
  | .none => 0 | .main => 1 | .backup => 2

def PairMode.ofCode (b : Byte) : Option PairMode :=
  if b = 0 then some .none else if b = 1 then some .main else if b = 2 then some .backup else Option.none

def Role.code : Role → Byte
  | .solo => 0 | .active => 1 | .standby => 2

def Role.ofCode (b : Byte) : Option Role :=
  if b = 0 then some .solo else if b = 1 then some .active else if b = 2 then some .standby else Option.none

def StepState.code : StepState → Byte
  | .joining => 0 | .inStep => 1 | .outOfStep => 2 | .catchingUp => 3

def StepState.ofCode (b : Byte) : Option StepState :=
  if b = 0 then some .joining else if b = 1 then some .inStep else if b = 2 then some .outOfStep
  else if b = 3 then some .catchingUp else none

def LockState.code : LockState → Byte
  | .free => 0 | .acquiring => 1 | .locked => 2 | .holdover => 3

def LockState.ofCode (b : Byte) : Option LockState :=
  if b = 0 then some .free else if b = 1 then some .acquiring else if b = 2 then some .locked
  else if b = 3 then some .holdover else none

def Kind.code : Kind → Nat
  | .mark => 1 | .standby => 2 | .take => 3 | .hold => 4 | .resume => 5 | .skip => 6 | .close => 7 | .yield => 8
  | .presence => 9 | .edit => 10 | .ask => 11 | .ready => 12 | .relay => 13 | .part => 14

def Kind.ofCode (b : Byte) : Option Kind :=
  [Kind.mark, .standby, .take, .hold, .resume, .skip, .close, .yield, .presence, .edit, .ask, .ready, .relay, .part].find?
    (fun k => k.code == b.toNat)

/-- The ordered kinds: EDIT and the six air messages. -/
def Kind.ordered : Kind → Bool
  | .standby | .take | .hold | .resume | .skip | .close | .edit => true
  | .mark | .yield | .presence | .ask | .ready | .relay | .part => false

def AirMsg.kind : AirMsg → Kind
  | .standby _ => .standby | .take _ _ _ => .take | .hold _ => .hold | .resume _ => .resume | .skip _ => .skip
  | .close _ => .close

def Ordered.kind : Ordered → Kind
  | .edit _ => .edit
  | .air _ m => m.kind

def OutMsg.kind : OutMsg → Kind
  | .mark _ => .mark | .air _ m => m.kind | .yield _ => .yield | .presence _ => .presence | .edit _ => .edit
  | .ask => .ask | .ready _ _ => .ready | .relay _ _ => .relay | .part _ _ => .part

/-- A flag byte: 0 clear, 1 set, any other value free (log 7). -/
def flagOf (b : Byte) : Bool := if b = 0 then false else if b = 1 then true else Config.flagByte b

def optFrame (o : Option Frame) : List Byte := boolByte o.isSome :: le32 (o.getD 0)

/-! ## Cue and item records (R208) -/

/-- Length, short length and the two presence bits of a FIRE or LIGHT cue. -/
def Lengths.bits : Option Lengths → Byte
  | none => 0
  | some l => 8 ||| (if l.short.isSome then 16 else 0)

def Lengths.bytes : Option Lengths → List Byte
  | none => [0, 0, 0, 0]
  | some l => le16 l.full ++ le16 (l.short.getD 0)

/-- The 12 bytes of a cue. -/
def Cue.bytes (c : Cue) : List Byte :=
  let (kind, line, lens) : Byte × Byte × List Byte := match c.body with
    | .fire r h l => ((if h then 4 else 0) ||| Lengths.bits l, byteOf r.val, Lengths.bytes l)
    | .light n l => (1 ||| Lengths.bits l, byteOf n.val, Lengths.bytes l)
    | .pips n k => (2, byteOf (n.val + 16 * k), [0, 0, 0, 0])
    | .marker => (3, 0, [0, 0, 0, 0])
  [byteOf c.slot.val, byteOf c.owner.val, kind] ++ le16 c.offset ++ [line] ++ lens ++ le16 c.param

/-- Lengths as carried, where presence bits and values agree with R14: 1 to 65,535, the short one not greater than the length
and only beside it, zero bytes where absent. Outer `none`: not well formed. -/
def readLengths (present shortPresent : Bool) (full short : Half) : Option (Option Lengths) :=
  if present then
    if full = 0 then none
    else if shortPresent then
      if short = 0 ∨ full < short then none else some (some ⟨full, some short⟩)
    else if short = 0 then some (some ⟨full, none⟩) else none
  else if shortPresent ∨ full ≠ 0 ∨ short ≠ 0 then none
  else some none

/-- The fields of a cue that its kind fixes, from kind byte, line byte and lengths (R14, R208). -/
def readBody (kind line : Byte) (full short : Half) : Option CueBody :=
  let hard := kind.getLsbD 2
  let low := line.toNat % 16
  let high := line.toNat / 16
  if kind.toNat ≥ 32 then none else
  match readLengths (kind.getLsbD 3) (kind.getLsbD 4) full short with
  | none => none
  | some l =>
    match kind.toNat % 4 with
    | 0 => if high = 0 then some (.fire (Fin.ofNat 16 low) hard l) else none
    | 1 => if hard ∨ high ≠ 0 ∨ low ≥ 8 then none else some (.light (Fin.ofNat 8 low) l)
    | 2 => if hard ∨ l.isSome ∨ low ≥ 2 ∨ high = 0 ∨ high > 10 then none else some (.pips (Fin.ofNat 2 low) high)
    | _ => if hard ∨ l.isSome ∨ line ≠ 0 then none else some .marker

/-- A cue record from its 12 bytes; `none` where it is not well formed (R13, R14, R208). -/
def readCue : List Byte → Option Cue
  | [slot, owner, kind, o0, o1, line, l0, l1, s0, s1, p0, p1] =>
    if slot.toNat < 16 ∧ owner.toNat < 32 then
      (readBody kind line (l1 ++ l0) (s1 ++ s0)).map fun body =>
        ⟨Fin.ofNat 16 slot.toNat, Fin.ofNat 32 owner.toNat, body, o1 ++ o0, p1 ++ p0⟩
    else none
  | _ => none

/-- `n` records of 12 bytes each. -/
def cutCues : Nat → List Byte → List (List Byte)
  | 0, _ => []
  | n + 1, bs => bs.take 12 :: cutCues n (bs.drop 12)

/-- Every record well formed, or none. -/
def readCues : List (List Byte) → Option (List Cue)
  | [] => some []
  | b :: r => match readCue b, readCues r with
    | some c, some cs => some (c :: cs)
    | _, _ => none

/-- Strictly ascending slot order (R208). -/
def slotsAscend : List Cue → Bool
  | a :: b :: r => decide (a.slot < b.slot) && slotsAscend (b :: r)
  | _ => true

/-- A slug: 1 to 24 characters, each 32 to 126 (R9). -/
def slugOk (s : List Byte) : Bool :=
  decide (1 ≤ s.length ∧ s.length ≤ 24) && s.all (fun b => decide (32 ≤ b.toNat ∧ b.toNat ≤ 126))

/-- The largest hold total and actual duration (R11). -/
def maxSpan : Nat := 2147483647

/-- State byte, start, hold total, held-at, end frame and actual duration of a status, and its taken-short flag. -/
def ItemStatus.fields : ItemStatus → Byte × Frame × Word × Frame × Frame × Word × Bool
  | .pending => (0, 0, 0, 0, 0, 0, false)
  | .standingBy => (1, 0, 0, 0, 0, 0, false)
  | .onAir a => (2 ||| 8 ||| (if a.heldAt.isSome then 16 else 0), a.start, a.holdTotal, a.heldAt.getD 0, 0, 0, a.short)
  | .done s t h e d => (3 ||| 8 ||| 32, s, h, 0, e, d, t)
  | .skipped => (4, 0, 0, 0, 0, 0, false)

/-- An item in canonical form (R208): 32 bytes, the slug, and 12 for each cue. -/
def Item.bytes (i : Item) : List Byte :=
  let (st, start, hold, heldAt, endF, actual, taken) := i.status.fields
  let flags : Byte := (if i.float then 1 else 0) ||| (if i.fixed then 2 else 0) ||| (if i.planShort then 4 else 0)
    ||| (if i.short.isSome then 8 else 0) ||| (if taken then 16 else 0)
  le16 i.id ++ [byteOf i.slug.length] ++ i.slug ++ le24 i.planned ++ le24 (i.short.getD 0) ++ [flags, st]
    ++ le32 start ++ le32 hold ++ le32 heldAt ++ le32 endF ++ le32 actual ++ [byteOf i.cues.length]
    ++ i.cues.flatMap Cue.bytes

/-- The replica header bytes (R208). -/
def Replica.headerBytes (r : Replica) : List Byte :=
  le32 r.version ++ le32 r.airCount ++ optFrame r.hardOut ++ [byteOf r.items.length]

/-- The canonical serialization (R5, R208). -/
def Replica.bytes (r : Replica) : List Byte := r.headerBytes ++ r.items.flatMap Item.bytes

/-- The check word of a replica's contents (R5, R208). -/
def Replica.checkWord (r : Replica) : Word := crc32 r.bytes

/-- The status that state byte, taken-short flag and timing fields make, where they match R10 and the ranges of R11. -/
def readStatus (st : Byte) (taken : Bool) (start : Frame) (hold : Word) (heldAt endF : Frame) (actual : Word) :
    Option ItemStatus :=
  let held := st.getLsbD 4
  let blank := decide (start = 0 ∧ hold = 0 ∧ heldAt = 0 ∧ endF = 0 ∧ actual = 0) && !taken
  if st = 0 then (if blank then some .pending else none)
  else if st = 1 then (if blank then some .standingBy else none)
  else if st = 4 then (if blank then some .skipped else none)
  else if st = 2 ||| 8 ∨ st = 2 ||| 8 ||| 16 then
    if hold.toNat ≤ maxSpan ∧ endF = 0 ∧ actual = 0 ∧ (held ∨ heldAt = 0) then
      some (.onAir ⟨start, taken, hold, if held then some heldAt else none⟩)
    else none
  else if st = 3 ||| 8 ||| 32 then
    if hold.toNat ≤ maxSpan ∧ heldAt = 0 ∧ 1 ≤ actual.toNat ∧ actual.toNat ≤ maxSpan then
      some (.done start taken hold endF actual)
    else none
  else none

/-- An item from its canonical bytes, all of them; `none` where it is not well formed (R9, R10, R13, R14, R172, R208). -/
def readItem (bs : List Byte) : Option Item := do
  let (id, bs) ← rd16 bs
  let (n, bs) ← rd8 bs
  let (slug, bs) ← rdN n.toNat bs
  let (planned, bs) ← rd24 bs
  let (short, bs) ← rd24 bs
  let (flags, bs) ← rd8 bs
  let (st, bs) ← rd8 bs
  let (start, bs) ← rd32 bs
  let (hold, bs) ← rd32 bs
  let (heldAt, bs) ← rd32 bs
  let (endF, bs) ← rd32 bs
  let (actual, bs) ← rd32 bs
  let (count, bs) ← rd8 bs
  let cues ← readCues (cutCues count.toNat bs)
  let status ← readStatus st (flags.getLsbD 4) start hold heldAt endF actual
  if slugOk slug ∧ flags.toNat < 32 ∧ (flags.getLsbD 3 ∨ short = 0) ∧ count.toNat ≤ 16 ∧ bs.length = 12 * count.toNat
      ∧ slotsAscend cues then
    some ⟨id, slug, planned, if flags.getLsbD 3 then some short else none, flags.getLsbD 0, flags.getLsbD 1,
      flags.getLsbD 2, status, cues⟩
  else none

/-! ## Edit operations -/

/-- An edit operation as its bytes read, before any check of its values. -/
inductive RawOp
  | insert (anchor : Option ItemId) (id : ItemId) (slug : List Byte) (planned : BitVec 24) (flags : Byte)
      (short : BitVec 24) (cues : List (List Byte))
  | delete (id : ItemId)
  | move (id : ItemId) (anchor : Option ItemId)
  | amend (id : ItemId) (slug : Option (List Byte)) (planned : Option (BitVec 24))
      (short : Option (Option (BitVec 24))) (flags : Option Byte)
  | addCue (id : ItemId) (cue : List Byte)
  | dropCue (id : ItemId) (slot : Byte)
  | setOut (frame : Option Frame)
  | revive (id : ItemId)
  deriving DecidableEq, Repr

/-- How many bytes the fields that AMEND's change mask names take; `none` where a slug length is missing. -/
def amendLength (mask : Byte) (rest : List Byte) : Option Nat :=
  let tail := (if mask.getLsbD 1 then 3 else 0) + (if mask.getLsbD 2 then 4 else 0) + (if mask.getLsbD 3 then 1 else 0)
  if mask.getLsbD 0 then rest.head?.map (fun n => 1 + n.toNat + tail) else some tail

/-- How many bytes the operation at the head takes, its code included, as its own lengths and counts read; `none` for a
code that is not one of the eight, or where a length byte lies past the end. With `withId` clear, an INSERT carries no item
id, as in a PROPOSE request (R200, R209). -/
def opLength (withId : Bool) (bs : List Byte) : Option Nat := do
  let code ← bs.head?
  let idLen := if withId then 2 else 0
  match code.toNat with
  | 1 =>
    let slugLen ← bs[4 + idLen]?
    let count ← bs[12 + idLen + slugLen.toNat]?
    some (13 + idLen + slugLen.toNat + 12 * count.toNat)
  | 2 => some 3
  | 3 => some 6
  | 4 =>
    let mask ← bs[3]?
    let n ← amendLength mask (bs.drop 4)
    some (4 + n)
  | 5 => some 15
  | 6 => some 4
  | 7 => some 6
  | 8 => some 3
  | _ => none

/-- The bytes of the operation at the head and the rest, where it can be read within the payload (R31). -/
def cutOp (withId : Bool) (bs : List Byte) : Option (List Byte × List Byte) :=
  match opLength withId bs with
  | some n => rdN n bs
  | none => none

/-- An anchor: mode 0 the head, mode 1 after the item named; outer `none` for another mode (R207). -/
def readAnchor (mode : Byte) (id : ItemId) : Option (Option ItemId) :=
  if mode = 0 then some none else if mode = 1 then some (some id) else none

/-- A part of AMEND that its mask bit makes present. -/
def readIf {α : Type} (present : Bool) (rd : List Byte → Option (α × List Byte)) (bs : List Byte) :
    Option (Option α × List Byte) :=
  if present then (rd bs).map (fun p => (some p.1, p.2)) else some (none, bs)

def rdSlug (bs : List Byte) : Option (List Byte × List Byte) :=
  match rd8 bs with
  | some (n, r) => rdN n.toNat r
  | none => none

/-- AMEND's short duration: mode 0 none, mode 1 the value (R207). -/
def rdShort (bs : List Byte) : Option (Option (BitVec 24) × List Byte) := do
  let (mode, bs) ← rd8 bs
  let (v, bs) ← rd24 bs
  if mode = 0 then some (none, bs) else if mode = 1 then some (some v, bs) else none

/-- One operation from its bytes as an EDIT carries them; `none` where a mode is not 0 or 1 or a mask bit above 3 is set, which
makes the operation unreadable (R31, R207; log 12). The bytes of a field that its mode makes absent are not looked at (log 12). -/
def readOp (bs : List Byte) : Option RawOp := do
  let (code, bs) ← rd8 bs
  match code.toNat with
  | 1 =>
    let (mode, bs) ← rd8 bs
    let (anchorId, bs) ← rd16 bs
    let (id, bs) ← rd16 bs
    let (slug, bs) ← rdSlug bs
    let (planned, bs) ← rd24 bs
    let (flags, bs) ← rd8 bs
    let (short, bs) ← rd24 bs
    let (count, bs) ← rd8 bs
    let anchor ← readAnchor mode anchorId
    some (.insert anchor id slug planned flags short (cutCues count.toNat bs))
  | 2 =>
    let (id, _) ← rd16 bs
    some (.delete id)
  | 3 =>
    let (id, bs) ← rd16 bs
    let (mode, bs) ← rd8 bs
    let (anchorId, _) ← rd16 bs
    let anchor ← readAnchor mode anchorId
    some (.move id anchor)
  | 4 =>
    let (id, bs) ← rd16 bs
    let (mask, bs) ← rd8 bs
    let (slug, bs) ← readIf (mask.getLsbD 0) rdSlug bs
    let (planned, bs) ← readIf (mask.getLsbD 1) rd24 bs
    let (short, bs) ← readIf (mask.getLsbD 2) rdShort bs
    let (flags, _) ← readIf (mask.getLsbD 3) rd8 bs
    if mask.toNat < 16 then some (.amend id slug planned short flags) else none
  | 5 =>
    let (id, bs) ← rd16 bs
    some (.addCue id bs)
  | 6 =>
    let (id, bs) ← rd16 bs
    let (slot, _) ← rd8 bs
    some (.dropCue id slot)
  | 7 =>
    let (mode, bs) ← rd8 bs
    let (f, _) ← rd32 bs
    if mode = 0 then some (.setOut none) else if mode = 1 then some (.setOut (some f)) else none
  | 8 =>
    let (id, _) ← rd16 bs
    some (.revive id)
  | _ => none

/-- Every operation of a batch cut from the payload, where `n` can be read and nothing is left over. -/
def cutOps (withId : Bool) : Nat → List Byte → Option (List (List Byte))
  | 0, bs => if bs.isEmpty then some [] else none
  | n + 1, bs => match cutOp withId bs with
    | some (op, r) => (cutOps withId n r).map (op :: ·)
    | none => none

/-! ## PRESENCE (R207) -/

def Presence.bytes (p : Presence) : List Byte :=
  let b0 : Byte := (if p.timeCapable then 1 else 0) ||| (if p.directorCapable then 2 else 0)
    ||| (if p.referencePresent then 4 else 0) ||| (if p.source then 8 else 0) ||| (if p.sending then 16 else 0)
  [b0, p.pairMode.code, (match p.partner with | some n => byteOf n.val | none => 255), p.role.code, p.step.code,
    p.lock.code] ++ le32 p.summary.version ++ le32 p.summary.airCount ++ le32 p.summary.check ++ optFrame p.doneThrough

/-- A PRESENCE payload, where it holds defined values (R154, R207). -/
def readPresence (bs : List Byte) : Option Presence := do
  let (b0, bs) ← rd8 bs
  let (m, bs) ← rd8 bs
  let (pt, bs) ← rd8 bs
  let (ro, bs) ← rd8 bs
  let (st, bs) ← rd8 bs
  let (lk, bs) ← rd8 bs
  let (v, bs) ← rd32 bs
  let (a, bs) ← rd32 bs
  let (c, bs) ← rd32 bs
  let (dp, bs) ← rd8 bs
  let (d, _) ← rd32 bs
  let mode ← PairMode.ofCode m
  let role ← Role.ofCode ro
  let step ← StepState.ofCode st
  let lock ← LockState.ofCode lk
  let partnerOk := if mode = .none then decide (pt = 255) else decide (pt.toNat < 32)
  if b0.toNat < 32 ∧ partnerOk ∧ (dp = 1 ∨ (dp = 0 ∧ d = 0)) then
    some ⟨b0.getLsbD 0, b0.getLsbD 1, b0.getLsbD 2, b0.getLsbD 3, b0.getLsbD 4, mode,
      if mode = .none then none else some (Fin.ofNat 32 pt.toNat), role, step, lock, ⟨v, a, c⟩,
      if dp = 1 then some d else none⟩
  else none

/-! ## Messages on the line -/

def AirMsg.bytes : AirMsg → List Byte
  | .standby i => le16 i
  | .take i f s => le16 i ++ le32 f ++ [boolByte s]
  | .hold f => le32 f
  | .resume f => le32 f
  | .skip i => le16 i
  | .close f => le32 f

def EditMsg.bytes (m : EditMsg) : List Byte := le32 m.base ++ [m.proposer] ++ le16 m.tag ++ [m.count] ++ m.ops

/-- The payload of a message (chapter 12). -/
def OutMsg.payload : OutMsg → List Byte
  | .mark f => le32 f
  | .air n m => le32 n ++ m.bytes
  | .yield _ => []
  | .presence p => p.bytes
  | .edit m => m.bytes
  | .ask => []
  | .ready l i => [byteOf l.val, boolByte i.isSome] ++ le16 (i.getD 0)
  | .relay _ d => d
  | .part n c => byteOf n :: c

/-- The destination byte (R128, R129). -/
def OutMsg.dest : OutMsg → Byte
  | .yield p => byteOf p.val
  | .relay d _ => d
  | _ => 255

/-- A whole transmission: preamble, start delimiter, header, payload, message check (R126, R127, R207). -/
def OutMsg.transmission (source : StationNo) (m : OutMsg) : List Byte :=
  let head := [m.dest, byteOf source.val, byteOf m.kind.code, byteOf m.payload.length]
  let header := head ++ [crc8 head]
  [0x33, 0x33, 0x33, 0x33, 0x6B] ++ header ++ m.payload ++ le32 (crc32 (header ++ m.payload))

/-- A message accepted from the line, by consumer (R141). -/
inductive RxMsg
  | ordered (m : Ordered)
  | mark (frame : Frame)
  | yield
  | presence (payload : List Byte)
  | ask
  | ready (line : Byte) (item : Option ItemId)
  | relay (data : List Byte)
  | part (number : Nat) (content : List Byte)
  deriving DecidableEq, Repr

/-- A payload read as its kind's message; `none` where the length is not the one chapter 12 gives the kind (R129, R207). -/
def readPayload (k : Kind) (p : List Byte) : Option RxMsg :=
  match k with
  | .mark => if p.length = 4 then (rd32 p).map (fun x => .mark x.1) else none
  | .standby => if p.length = 6 then do
      let (n, p) ← rd32 p
      let (i, _) ← rd16 p
      some (.ordered (.air n (.standby i))) else none
  | .take => if p.length = 11 then do
      let (n, p) ← rd32 p
      let (i, p) ← rd16 p
      let (f, p) ← rd32 p
      let (s, _) ← rd8 p
      some (.ordered (.air n (.take i f (flagOf s)))) else none
  | .hold => if p.length = 8 then do
      let (n, p) ← rd32 p
      let (f, _) ← rd32 p
      some (.ordered (.air n (.hold f))) else none
  | .resume => if p.length = 8 then do
      let (n, p) ← rd32 p
      let (f, _) ← rd32 p
      some (.ordered (.air n (.resume f))) else none
  | .skip => if p.length = 6 then do
      let (n, p) ← rd32 p
      let (i, _) ← rd16 p
      some (.ordered (.air n (.skip i))) else none
  | .close => if p.length = 8 then do
      let (n, p) ← rd32 p
      let (f, _) ← rd32 p
      some (.ordered (.air n (.close f))) else none
  | .yield => if p.length = 0 then some .yield else none
  | .presence => if p.length = 23 then some (.presence p) else none
  | .edit => if 8 ≤ p.length ∧ p.length ≤ 255 then do
      let (b, p) ← rd32 p
      let (pr, p) ← rd8 p
      let (t, p) ← rd16 p
      let (c, p) ← rd8 p
      some (.ordered (.edit ⟨b, pr, t, c, p⟩)) else none
  | .ask => if p.length = 0 then some .ask else none
  | .ready => if p.length = 4 then do
      let (l, p) ← rd8 p
      let (present, p) ← rd8 p
      let (i, _) ← rd16 p
      some (.ready l (if flagOf present then some i else none)) else none
  | .relay => if 1 ≤ p.length ∧ p.length ≤ 240 then some (.relay p) else none
  | .part => match p with
    | [] => none
    | n :: body =>
      if n = 0 then (if body.isEmpty then some (.part 0 []) else none)
      else if n = 1 then (if body.length = 18 then some (.part 1 body) else none)
      else match body[2]? with
        | none => none
        | some slugLen => match body[31 + slugLen.toNat]? with
          | none => none
          | some cueCount =>
            if body.length = 32 + slugLen.toNat + 12 * cueCount.toNat then some (.part n.toNat body) else none

/-- Whether a destination byte has the form its kind requires (R129, R207). -/
def destForm (k : Kind) (d : Byte) : Bool :=
  match k with
  | .yield => decide (d.toNat < 32)
  | .relay => decide (d.toNat < 32 ∨ (64 ≤ d.toNat ∧ d.toNat ≤ 127) ∨ d = 255)
  | _ => decide (d = 255)

/-! ## PART contents (R168) -/

/-- What part 1 carries after its number. -/
def part1Content (r : Replica) : List Byte :=
  le32 r.version ++ le32 r.airCount ++ le32 r.check ++ optFrame r.hardOut ++ [byteOf r.items.length]

/-- The content of part `k` of a frozen replica: the header for part 1, the item at position k − 1 otherwise. -/
def partContent (r : Replica) (k : Nat) : List Byte :=
  if k = 1 then part1Content r else match r.items[k - 2]? with
    | some i => i.bytes
    | none => []

/-- The header part 1 carries, with its item count; `none` where the count is above 96 or the hard out is not well formed
(R172): its presence byte 0 or 1, and an absent hard out written as zero bytes (log 44). -/
def readPart1 (bs : List Byte) : Option (Replica × Nat) := do
  let (v, bs) ← rd32 bs
  let (a, bs) ← rd32 bs
  let (c, bs) ← rd32 bs
  let (hp, bs) ← rd8 bs
  let (h, bs) ← rd32 bs
  let (n, _) ← rd8 bs
  if n.toNat ≤ 96 ∧ (hp = 1 ∨ (hp = 0 ∧ h = 0)) then
    some (⟨v, a, if hp = 1 then some h else none, c, []⟩, n.toNat)
  else none

end Sys2Proof.Machine
end

