-- ==== Sys2Proof/Machine/State.lean ====
section
/-! DEFINITION. The state of one station, block by block, as plain data, and its value right after reset. Each block's record
is named in its own chapter; INVENTORY.md lists every field with its rule and reset value. -/

namespace Sys2Proof.Machine

/-! ## Rundown store (chapter 1) -/

/-- The store operations (R17). A part write carries the part's number and content; a part read its number. -/
inductive StoreOp
  | apply
  | freezeCopy
  | partWrite (number : Nat) (content : List Byte)
  | partRead (number : Nat)
  | shadowCheck
  | bankSwap
  | rearmRead
  | takeoverRead
  | projectionRead
  | itemRead (id : ItemId)
  | orderRead
  deriving DecidableEq, Repr

/-- The five clients, in the arbiter's order of precedence (R18). -/
inductive Client
  | apply | sync | scheduler | timing | port
  deriving DecidableEq, Repr

/-- The two banks, the summary copy and the arbiter (R6, R15, R18). `dropped` marks an operation in progress whose outcome
is dropped at its end (R170, R174, R175). -/
structure Store where
  live : Replica
  shadow : Replica
  use : ShadowUse
  summary : Summary
  holder : Option StoreOp
  dropped : Bool
  waitApply : Option StoreOp
  waitSync : Option StoreOp
  waitScheduler : Option StoreOp
  waitTiming : Option StoreOp
  waitPort : Option StoreOp
  deriving DecidableEq, Repr

/-! ## Apply engine (chapter 2) -/

/-- An entry of the apply queue (R22). A freeze marker is void where its stream was abandoned: it leaves without a copy (R19,
R170). -/
inductive QueueEntry
  | ordered (source : StationNo) (m : Ordered)
  | marker (void : Bool)
  deriving DecidableEq, Repr

/-- An EDIT batch part-way through its operations (R31): the replica as it would stand, the number of the next operation, the
bytes not yet read, and what the outcome report and notice will need (R41, R50). -/
structure Batch where
  work : Replica
  index : Nat
  rest : List Byte
  inserted : List ItemId
  deleted : List ItemId
  revived : List ItemId
  setOut : Bool
  deriving DecidableEq, Repr

/-- The apply queue, its reservation and holding mode, the batch in hand and the serial counter (R22, R40). -/
structure ApplyEngine where
  queue : List QueueEntry
  reserved : Bool
  holding : Bool
  batch : Option Batch
  serial : Fin 2048
  deriving DecidableEq, Repr

/-! ## Timebase unit (chapter 3) -/

/-- R51 to R55. The flywheel runs exactly while `refLost`. `lastPulse` and `watchFrom` are moments of the clock: the last frame
pulse, and where the reference watch measures from. -/
structure Timebase where
  counter : Frame
  lock : LockState
  agree : Nat
  silence : Nat
  holdover : Nat
  followed : Option StationNo
  capture : Option Frame
  source : Bool
  slipCount : Nat
  lastSlip : Option (Word × Frame)
  refLost : Bool
  lastPulse : Option Nat
  watchFrom : Nat
  deriving DecidableEq, Repr

/-! ## Cue scheduler (chapter 4) -/

/-- What the arming after a takeover needs (R190, R191): the partner's done-through frame D, the takeover frame T, the overflow
mark, and the names of the shadow records settled. -/
structure Takeover where
  doneThrough : Option Frame
  frame : Frame
  overflow : Bool
  keys : List EntryKey
  deriving DecidableEq, Repr

/-- The armed table, the resource table, the spacing history, the shadow list and the reads still to be made. -/
structure Scheduler where
  armed : List Entry
  resources : Vector Resource 16
  groups : Vector (Option (Frame × Fin 16)) 4
  holdFrame : Option Frame
  lastDone : Option (ItemId × Frame)
  doneThrough : Option Frame
  shadowList : List ShadowRec
  overflow : Bool
  rearmWanted : Bool
  takeover : Option Takeover
  deriving DecidableEq, Repr

/-! ## Output unit (chapter 5) -/

/-- Held light states, pip sequencers and the last ready samples (R99, R103, R108). -/
structure Output where
  lights : Vector Light 8
  pips : Vector (Option Playing) 2
  samples : Option (Vector Bool 4)
  deriving DecidableEq, Repr

/-! ## Timing unit (chapter 6) -/

structure Timing where
  onAir : Option TimerRec
  ending : Option TimerRec
  wrapClaim : Light
  wrapItem : Option ItemId
  projection : Projection
  readAgain : Bool
  rebuild : Bool
  sign : Sign
  deriving DecidableEq, Repr

/-! ## Line controller (chapter 7) -/

/-- The reception in progress, if any, by the moment of its delimiter (R138, R140): in RUN with this station silent, in RUN
while it transmitted, or before the entry to RUN. Only the first is received. -/
inductive RxState
  | none | inRun | own | beforeRun
  deriving DecidableEq, Repr

/-- A back-off wait: its length in slots and the moment it is measured from (R134). -/
structure Backoff where
  slots : Nat
  since : Nat
  deriving DecidableEq, Repr

/-- The transmit queues, the message in flight (the head of its class's queue), the attempt, and the counts. `driven` is what
the station last put on the line: an attempt's bytes, or the jam that ended it; nothing once one completes. -/
structure Line where
  urgent : List TxMsg
  routine : List TxMsg
  bulk : List TxMsg
  flight : Option TxClass
  transmitting : Bool
  attemptAt : Nat
  driven : List Byte
  backoff : Option Backoff
  muted : Bool
  rx : RxState
  record : LineRecord
  deriving DecidableEq, Repr

/-! ## Roster (chapter 8) -/

structure Roster where
  peers : Vector PeerEntry 32
  lastSent : Option (Frame × Presence)
  deriving DecidableEq, Repr

/-! ## Sync engine (chapter 9) -/

inductive AskState
  | none | queued | out
  deriving DecidableEq, Repr

inductive CatchPhase
  | awaiting | receiving | checking | swapping
  deriving DecidableEq, Repr

inductive Responder
  | idle | waiting | opening | freezing | sending
  deriving DecidableEq, Repr

/-- R151, R159. `buffer` holds number and content of the parts taken and not yet written. -/
structure Sync where
  step : StepState
  joinCount : Nat
  askWait : Nat
  ask : AskState
  askRetry : Nat
  phase : CatchPhase
  source : Option StationNo
  expected : Nat
  count : Option Nat
  written : Nat
  buffer : List (Nat × List Byte)
  gap : Nat
  responder : Responder
  wait : Option Nat
  nextPart : Option Nat
  pendingAsk : Bool
  askers : List StationNo
  deriving DecidableEq, Repr

/-! ## Pair monitor (chapter 10) -/

inductive YieldState
  | none | queued | pending
  deriving DecidableEq, Repr

/-- R178. A judgement of the fitness record is true for FIT. Pair mode and partner stand in the configuration. -/
structure Pair where
  role : Role
  yield : YieldState
  yieldCount : Nat
  fitness : List Bool
  blocked : Bool
  deriving DecidableEq, Repr

/-! ## Host port (chapter 11) -/

/-- A host transfer in progress (R193, R197, R206): a request write, a port control write, a notice read carrying the notice at the
head of the URGENT or the ROUTINE queue, one with nothing more to carry, or any ignored to its end. -/
inductive Transfer
  | requestWrite
  | portControl
  | notice (urgent : Bool)
  | carried
  | ignored
  deriving DecidableEq, Repr

/-- The queues, the flags and enables, whether the head request waits in hand for the store, the transfer in progress, and what
the read transfer in progress, else the last one, returns. -/
structure Port where
  requests : List (List Byte)
  inHand : Bool
  urgent : List Notice
  routine : List Notice
  requestLost : Bool
  urgentLost : Bool
  routineLost : Bool
  urgentEnable : Bool
  routineEnable : Bool
  transfer : Option Transfer
  out : ReadOut
  deriving DecidableEq, Repr

/-! ## The station -/

/-- One station. `clock` is the real time passed since reset in thirds of a nanosecond (log 1); `pending` holds the commands
that wait, the front first. -/
structure State where
  run : RunState
  straps : Straps
  cfg : Option Cfg
  clock : Nat
  store : Store
  apply : ApplyEngine
  tb : Timebase
  sched : Scheduler
  out : Output
  timing : Timing
  line : Line
  roster : Roster
  sync : Sync
  pair : Pair
  port : Port
  pending : List Instr
  deriving DecidableEq, Repr

/-- Fault reasons. The spec names no condition that stops the part. -/
inductive Fault
  /-- Raised by nobody: the type needs a reason, and no command of this part has one (safe). -/
  | never
  deriving DecidableEq, Repr

/-- A refusal says that a command has no meaning here. -/
inductive Refusal
  /-- Raised by an arm of exec whose command has no meaning yet (safe). No arm is so. -/
  | notModelled (mnemonic : String)
  deriving DecidableEq, Repr

/-- What a step answers. -/
abbrev Outcome := Host.Outcome State Fault Refusal

/-! ## After reset (R21, R22, R51, R55, R98, R114, R125, R145, R153, R159, R178, R206; the table of R147) -/

/-- The empty replica, with the check word computed over it (R1). -/
def Replica.empty : Replica :=
  let r : Replica := ⟨0, 0, none, 0, []⟩
  ⟨0, 0, none, r.checkWord, []⟩

def Replica.summary (r : Replica) : Summary := ⟨r.version, r.airCount, r.check⟩

def Store.reset : Store :=
  { live := .empty, shadow := .empty, use := .empty, summary := Replica.empty.summary, holder := none, dropped := false,
    waitApply := none, waitSync := none, waitScheduler := none, waitTiming := none, waitPort := none }

def ApplyEngine.reset : ApplyEngine :=
  { queue := [], reserved := false, holding := false, batch := none, serial := 0 }

def Timebase.reset : Timebase :=
  { counter := 0, lock := .free, agree := 0, silence := 0, holdover := 0, followed := none, capture := none,
    source := false, slipCount := 0, lastSlip := none, refLost := false, lastPulse := none, watchFrom := 0 }

def Resource.reset : Resource := { state := .idle, holder := none, lastFire := none, recoveryUntil := none }

def Scheduler.reset : Scheduler :=
  { armed := [], resources := .replicate 16 .reset, groups := .replicate 4 none, holdFrame := none, lastDone := none,
    doneThrough := none, shadowList := [], overflow := false, rearmWanted := false, takeover := none }

def Output.reset : Output :=
  { lights := .replicate 8 .off, pips := .replicate 2 none, samples := none }

def Timing.reset : Timing :=
  { onAir := none, ending := none, wrapClaim := .off, wrapItem := none,
    projection := { onAir := none, remaining := 0, hardOut := none }, readAgain := false, rebuild := false,
    sign := .absent }

def Line.reset : Line :=
  { urgent := [], routine := [], bulk := [], flight := none, transmitting := false, attemptAt := 0, driven := [],
    backoff := none, muted := false, rx := .none, record := {} }

def PeerEntry.reset : PeerEntry := { present := false, contents := none, lastHeard := none, silence := 0 }

def Roster.reset : Roster := { peers := .replicate 32 .reset, lastSent := none }

def Sync.reset : Sync :=
  { step := .joining, joinCount := 0, askWait := 0, ask := .none, askRetry := 0, phase := .awaiting, source := none,
    expected := 0, count := none, written := 0, buffer := [], gap := 0, responder := .idle, wait := none,
    nextPart := none, pendingAsk := false, askers := [] }

def Pair.reset : Pair := { role := .solo, yield := .none, yieldCount := 0, fitness := [], blocked := false }

def Port.reset : Port :=
  { requests := [], inHand := false, urgent := [], routine := [], requestLost := false, urgentLost := false,
    routineLost := false, urgentEnable := false, routineEnable := false, transfer := none, out := .none }

/-- Strap levels where none have been sampled: all low (log 5, DESIGN CHOICE; the pins are outside). -/
def strapsLow : Straps := { number := 0, timeCapable := false, directorCapable := false }

/-- The station with every piece of state at its reset value, in run state `rs`, with the straps given. -/
def State.resetTo (rs : RunState) (straps : Straps) (pending : List Instr) : State :=
  { run := rs, straps := straps, cfg := none, clock := 0, store := .reset, apply := .reset, tb := .reset,
    sched := .reset, out := .reset, timing := .reset, line := .reset, roster := .reset, sync := .reset,
    pair := .reset, port := .reset, pending := pending }

/-- A host transfer in progress at a station reset is ignored to its end (R206). -/
def Port.resetKeeping (p : Port) : Port := { Port.reset with transfer := p.transfer.map fun _ => .ignored }

/-- A station reset (R147, R206). The commands that wait outside stay (log 5). -/
def State.resetNow (s : State) (rs : RunState) (straps : Straps) : State :=
  { State.resetTo rs straps s.pending with port := s.port.resetKeeping }

/-- Right after reset: in START (R147), no commands waiting. -/
def State.reset : State := State.resetTo .start strapsLow []

end Sys2Proof.Machine
end

