-- ==== Sys2Proof/Machine/Flags.lean ====
section
/-! DEFINITION. What is computed from the state and read by others: frame comparison, the clock's units, usability, fitness,
the roster's answers, busy flags and the levels of the output pins. -/

namespace Sys2Proof.Machine

/-! ## Frame numbers (00_scope.md, Conventions) -/

/-- The modular difference A − B as a signed number. -/
def fdiff (a b : Frame) : Int := (a - b).toInt

def later (a b : Frame) : Bool := decide (0 < fdiff a b)
def earlier (a b : Frame) : Bool := decide (fdiff a b < 0)
def atOrBefore (a b : Frame) : Bool := !later a b
def atOrAfter (a b : Frame) : Bool := !earlier a b

/-- The distance between two frames. -/
def distance (a b : Frame) : Nat := (fdiff a b).natAbs

/-! ## Real time, in thirds of a nanosecond (log 1) -/

/-- One bit time, 100 ns (R126). -/
def bitTime : Nat := 300

/-- A slot, 64 bit times (R126). -/
def slotTime : Nat := 64 * bitTime

def millisecond : Nat := 3000000

/-- The nominal period of a rate code (R52), exactly: 1/25, 1001/30000, 1/30, 1/50, 1001/60000 and 1/60 of a second (log 26). -/
def nominalPeriod (rate : Fin 6) : Nat :=
  match rate with
  | 0 => 120000000 | 1 => 100100000 | 2 => 100000000 | 3 => 60000000 | 4 => 50050000 | 5 => 50000000

/-- The second figure of a rate code (R52). -/
def secondFigure (rate : Fin 6) : Nat :=
  match rate with
  | 0 => 25 | 1 => 30 | 2 => 30 | 3 => 50 | 4 => 60 | 5 => 60

/-- How long a pip sounds (R106). -/
def pipLength (long : Bool) : Nat := if long then 500 * millisecond else 100 * millisecond

/-- Frames a short pip occupies: the second figure divided by 10, rounded up (R106). -/
def shortOccupancy (second : Nat) : Nat := (second + 9) / 10

/-- Frames a long pip occupies: the second figure divided by 2, rounded up (R88, R106). -/
def longOccupancy (second : Nat) : Nat := (second + 1) / 2

/-! ## Configuration in force -/

def ResourceParams.cleared : ResourceParams :=
  { group := 0, autoRelease := false, mirror := false, preroll := 0, advance := 0, repeatGap := 0, recovery := 0 }

/-- What the blocks read while no configuration is held; in START none of them acts on it (R149). -/
def Cfg.cleared : Cfg :=
  { rate := 0, groups := 0, resources := .replicate 16 .cleared, groupGaps := .replicate 4 0, warnLeads := .replicate 8 0,
    readyMap := .replicate 4 none, tones := .replicate 2 0, wrapLine := none, wrapLead := 0, pairMode := .none,
    partner := none }

def State.config (s : State) : Cfg := s.cfg.getD .cleared

def State.second (s : State) : Nat := secondFigure s.config.rate

/-- The pair number (R149): this station's for a MAIN, the partner's for a BACKUP. -/
def State.pairNumber (s : State) : Option StationNo :=
  match s.config.pairMode with
  | .none => none
  | .main => some s.straps.number
  | .backup => s.config.partner

/-- The owned numbers (R71), cleared until CONFIGURE (R98). -/
def State.owned (s : State) : List StationNo := if s.cfg.isSome then s.straps.number :: s.pairNumber.toList else []

/-- Whether this station takes a destination (R128). -/
def State.takesDest (s : State) (d : Byte) : Bool :=
  decide (d.toNat = s.straps.number.val) || decide (d = 255)
    || (decide (64 ≤ d.toNat ∧ d.toNat ≤ 127) && s.config.groups.getLsbD (d.toNat - 64))

/-! ## Lock and usability -/

/-- Gallery time is usable while LOCKED or HOLDOVER (R55). -/
def LockState.usable : LockState → Bool
  | .locked | .holdover => true
  | .free | .acquiring => false

def State.usable (s : State) : Bool := s.tb.lock.usable

/-- "Now" (R51). -/
def State.now (s : State) : Frame := s.tb.counter

def State.isRun (s : State) : Bool := decide (s.run = .run)

/-- The flash phase is lit (R69). -/
def flashLit (second : Nat) (counter : Frame) : Bool := decide (2 * (counter.toNat % second) < second)

/-! ## What the scheduler reads -/

/-- What the cue scheduler and the output unit read of other blocks. -/
structure Env where
  now : Frame
  clock : Nat
  cfg : Cfg
  owned : List StationNo
  role : Role
  usable : Bool
  second : Nat
  deriving DecidableEq, Repr

def State.env (s : State) : Env :=
  { now := s.now, clock := s.clock, cfg := s.config, owned := s.owned, role := s.pair.role, usable := s.usable,
    second := s.second }

/-! ## Apply queue -/

/-- Free places of the apply queue (R22). -/
def ApplyEngine.freePlaces (a : ApplyEngine) : Nat := 8 - a.queue.length - (if a.reserved then 1 else 0)

/-! ## The transmit queues (R129, R130) -/

def OutMsg.cls : OutMsg → TxClass
  | .mark _ | .air _ _ | .yield _ => .urgent
  | .presence _ | .edit _ | .ask | .ready _ _ | .relay _ _ => .routine
  | .part _ _ => .bulk

def TxClass.places : TxClass → Nat
  | .urgent => 4 | .routine => 8 | .bulk => 2

def Line.queue (l : Line) : TxClass → List TxMsg
  | .urgent => l.urgent | .routine => l.routine | .bulk => l.bulk

def Line.setQueue (l : Line) (c : TxClass) (q : List TxMsg) : Line :=
  match c with
  | .urgent => { l with urgent := q }
  | .routine => { l with routine := q }
  | .bulk => { l with bulk := q }

/-- An ordered message, or a PART opening: what needs a place of the apply queue to go (R131). -/
def OutMsg.needsPlace : OutMsg → Bool
  | .air _ _ | .edit _ => true
  | .part n _ => decide (n = 0)
  | .mark _ | .yield _ | .presence _ | .ask | .ready _ _ | .relay _ _ => false

def OutMsg.isOrdered : OutMsg → Bool
  | .air _ _ | .edit _ => true
  | .part _ _ | .mark _ | .yield _ | .presence _ | .ask | .ready _ _ | .relay _ _ => false

def OutMsg.isPart : OutMsg → Bool
  | .part _ _ => true
  | .air _ _ | .edit _ | .mark _ | .yield _ | .presence _ | .ask | .ready _ _ | .relay _ _ => false

def OutMsg.isMark : OutMsg → Bool
  | .mark _ => true
  | .air _ _ | .edit _ | .part _ _ | .yield _ | .presence _ | .ask | .ready _ _ | .relay _ _ => false

def OutMsg.isPresence : OutMsg → Bool
  | .presence _ => true
  | .air _ _ | .edit _ | .part _ _ | .yield _ | .mark _ | .ask | .ready _ _ | .relay _ _ => false

/-! ## The roster's answers (R64, R157, R158) -/

/-- Every station number in ascending order. -/
def stations : List StationNo := List.finRange 32

def State.peer (s : State) (n : StationNo) : PeerEntry := s.roster.peers[n]

/-- The contents of a PRESENT entry of another station. -/
def State.presentPeer (s : State) (n : StationNo) : Option Presence :=
  if n ≠ s.straps.number ∧ (s.peer n).present then (s.peer n).contents else none

/-- A present peer reports IN_STEP. -/
def State.peerInStep (s : State) (n : StationNo) : Bool :=
  match s.presentPeer n with
  | some c => decide (c.step = .inStep)
  | none => false

def State.anyPeerLocked (s : State) : Bool :=
  stations.any fun n => match s.presentPeer n with
    | some c => decide (c.lock = .locked)
    | none => false

/-- This station is eligible to be time source (R64). -/
def State.eligible (s : State) : Bool :=
  s.straps.timeCapable && !s.tb.refLost && !s.line.muted && (s.usable || !s.anyPeerLocked)

/-- A peer is eligible, as far as this roster shows (R64). -/
def State.peerEligible (s : State) (n : StationNo) : Bool :=
  match s.presentPeer n with
  | some c => c.timeCapable && c.referencePresent && (c.lock.usable || !s.anyPeerLocked)
  | none => false

/-- The order of the reference: higher version, then higher air count, then lower number (R157). -/
def preferSummary (a b : StationNo × Summary) : Bool :=
  decide (b.2.version.toNat < a.2.version.toNat) ||
    (decide (a.2.version = b.2.version) && (decide (b.2.airCount.toNat < a.2.airCount.toNat) ||
      (decide (a.2.airCount = b.2.airCount) && decide (a.1 < b.1))))

/-- The first of a list in the order of R157. -/
def bestSummary : List (StationNo × Summary) → Option (StationNo × Summary)
  | [] => none
  | a :: r => match bestSummary r with
    | none => some a
    | some b => if preferSummary b a then some b else some a

/-- The candidates of R157. -/
def State.candidates (s : State) : List (StationNo × Summary) :=
  stations.filterMap fun n =>
    if n = s.straps.number then (if s.sync.step = .inStep then some (n, s.store.summary) else none)
    else match s.presentPeer n with
      | some c => if c.step = .inStep then some (n, c.summary) else none
      | none => none

/-- The reference (R157). -/
def State.reference (s : State) : Option (StationNo × Summary) := bestSummary s.candidates

/-- Which station the order of R157 chooses from this station and every PRESENT peer, whatever their step (R164). -/
def State.wouldBeChosen (s : State) : Option (StationNo × Summary) :=
  bestSummary (stations.filterMap fun n =>
    if n = s.straps.number then some (n, s.store.summary) else (s.presentPeer n).map fun c => (n, c.summary))

/-- This station counts as sending a stream for the responder test (R167). -/
def State.streamOpen (s : State) : Bool :=
  decide (s.sync.responder = .freezing ∨ s.sync.responder = .sending)

/-- The responder test of this station (R158). -/
def State.passesTest (s : State) : Bool :=
  decide (s.sync.step = .inStep) && !s.streamOpen &&
    (match s.reference with
     | some r => decide (r.2 = s.store.summary)
     | none => false)

/-- The responder test of a peer (R158). -/
def State.peerPassesTest (s : State) (n : StationNo) : Bool :=
  match s.presentPeer n, s.reference with
  | some c, some r => decide (c.step = .inStep) && !c.sending && decide (c.summary = r.2)
  | _, _ => false

/-- This station's rank (R158). Station 31 with all 31 lower peers passing gets rank 31, where the rule says 0 to 30 (log 33). -/
def State.rank (s : State) : Nat :=
  (stations.filter fun n => decide (n < s.straps.number) && s.peerPassesTest n).length

/-- SHADOW's use while a stream is sent, as PRESENCE and port status show it (R15, R152). -/
def State.sending (s : State) : Bool := decide (s.store.use = .copying ∨ s.store.use = .frozen)

/-- The contents of this station's PRESENCE (R152). -/
def State.presence (s : State) : Presence :=
  { timeCapable := s.straps.timeCapable, directorCapable := s.straps.directorCapable,
    referencePresent := !s.tb.refLost, source := s.tb.source, sending := s.sending, pairMode := s.config.pairMode,
    partner := if s.config.pairMode = .none then none else s.config.partner, role := s.pair.role, step := s.sync.step,
    lock := s.tb.lock, summary := s.store.summary,
    doneThrough := if s.pair.role = .standby then none else s.sched.doneThrough }

/-! ## Pair (R179 to R181) -/

/-- This station is fit (R179). -/
def State.fit (s : State) : Bool :=
  s.isRun && !s.line.muted && decide (s.sync.step = .inStep) && s.usable

/-- The partner's roster entry. -/
def State.partnerEntry (s : State) : Option PeerEntry := s.config.partner.map s.peer

/-- The partner's last reported contents. -/
def State.partnerContents (s : State) : Option Presence :=
  match s.partnerEntry with
  | some e => e.contents
  | none => none

def State.partnerPresent (s : State) : Bool :=
  match s.partnerEntry with
  | some e => e.present
  | none => false

/-- A judgement of a partner's PRESENCE: FIT (R180). -/
def Presence.judgedFit (c : Presence) : Bool := decide (c.step = .inStep) && (c.lock.usable || c.source)

/-- This station is preferred over its partner (R180). -/
def State.preferredOver (s : State) (c : Presence) : Bool :=
  match s.config.pairMode, c.pairMode with
  | .main, .backup => true
  | .main, .main | .backup, .backup =>
    match s.config.partner with
    | some p => decide (s.straps.number < p)
    | none => false
  | _, _ => false

/-- The first takeover cause that holds (R181). -/
def State.takeoverCause (s : State) : Option RoleCause :=
  if !s.partnerPresent then some .partnerAbsent
  else if s.pair.fitness = [false, false] then some .partnerUnfit
  else match s.partnerContents with
    | some c => if c.role = .standby ∧ s.preferredOver c then some .preferred else none
    | none => none

/-! ## Claims and pins (chapter 5) -/

def Light.rank : Light → Nat
  | .off => 0 | .flash => 1 | .on => 2

/-- The higher of two claims, ON above FLASH above OFF (R100). -/
def Light.max (a b : Light) : Light := if a.rank < b.rank then b else a

/-- The claim a LIGHT entry holds on its line (R100, R101): none before its warn, FLASH once warned, ON once on; a HELD entry keeps
the claim it had. -/
def Entry.claim (e : Entry) : Option (Fin 8 × Light) :=
  match e.cue.body with
  | .light l _ =>
    match (if e.state = .held then e.previous.getD .armed else e.state) with
    | .prepared => some (l, .flash)
    | .running => some (l, .on)
    | _ => none
  | _ => none

/-- The claimed state of a line from the entries (R100). -/
def claimedBy (entries : List Entry) (line : Fin 8) : Light :=
  entries.foldl (fun a e => match e.claim with
    | some (l, c) => if l = line then a.max c else a
    | none => a) .off

/-- The claimed state of a line: the wrap line's is the wrap claim alone (R100, R118). -/
def State.claimed (s : State) (line : Fin 8) : Light :=
  if s.config.wrapLine = some line then s.timing.wrapClaim else claimedBy s.sched.armed line

/-- The outputs show: the station is in RUN and its role is not STANDBY (R99, R112). -/
def State.shows (s : State) : Bool := s.isRun && decide (s.pair.role ≠ .standby)

/-- Pin level of a light line (R99, R112). -/
def State.lightPin (s : State) (line : Fin 8) : Bool :=
  s.shows && (match s.out.lights[line] with
    | .off => false
    | .on => true
    | .flash => flashLit s.second s.now)

/-- The pip that sounds on a pip line (R108), shown on its pins or not. -/
def State.soundingPip (s : State) (line : Fin 2) : Option Sounding :=
  match s.out.pips[line] with
  | some p => p.sounding
  | none => none

/-- Level of a square wave of `tone` hundred hertz, `elapsed` after its start (R107): high at first, changing each half period, of
which `tone` go to 5 ms. -/
def waveHigh (tone elapsed : Nat) : Bool := decide (elapsed * tone / (5 * millisecond) % 2 = 0)

/-- Level of a pip line: its square wave while a pip sounds, else low (R107, R112). -/
def State.pipPin (s : State) (line : Fin 2) : Bool :=
  s.shows && (match s.soundingPip line with
    | some x => waveHigh s.config.tones[line] (s.clock - x.since)
    | none => false)

/-- A pip-level line is high: a long pip sounds (R107, R112). -/
def State.levelPin (s : State) (line : Fin 2) : Bool :=
  s.shows && (match s.soundingPip line with
    | some x => x.pip.long
    | none => false)

/-- The changeover line (R110). -/
def State.changeoverPin (s : State) : Bool := s.shows

/-- The caution line (R111). -/
def State.cautionPin (s : State) : Bool :=
  s.isRun && (decide (s.sync.step ≠ .inStep) || !s.usable || s.line.muted)

/-- The interrupt line (R199). -/
def Port.interrupt (p : Port) : Bool :=
  (p.urgentEnable && !p.urgent.isEmpty) || (p.routineEnable && !p.routine.isEmpty)

end Sys2Proof.Machine
end

