-- ==== Sys2Proof/Machine/Ops.lean ====
section
/-! DEFINITION. The named operations every block works through: one update per block's record, posting a notice (R196), the
store arbiter (R17, R18), and the transmit queues (R130, R131, R137). -/

namespace Sys2Proof.Machine

/-! ## One block's record replaced -/

def State.modStore (s : State) (f : Store → Store) : State := { s with store := f s.store }
def State.modApply (s : State) (f : ApplyEngine → ApplyEngine) : State := { s with apply := f s.apply }
def State.modTb (s : State) (f : Timebase → Timebase) : State := { s with tb := f s.tb }
def State.modSched (s : State) (f : Scheduler → Scheduler) : State := { s with sched := f s.sched }
def State.modOut (s : State) (f : Output → Output) : State := { s with out := f s.out }
def State.modTiming (s : State) (f : Timing → Timing) : State := { s with timing := f s.timing }
def State.modLine (s : State) (f : Line → Line) : State := { s with line := f s.line }
def State.modRoster (s : State) (f : Roster → Roster) : State := { s with roster := f s.roster }
def State.modSync (s : State) (f : Sync → Sync) : State := { s with sync := f s.sync }
def State.modPair (s : State) (f : Pair → Pair) : State := { s with pair := f s.pair }
def State.modPort (s : State) (f : Port → Port) : State := { s with port := f s.port }

/-- Real time passes (log 1). -/
def State.elapse (s : State) (dt : Nat) : State := { s with clock := s.clock + dt }

/-- A count held at 65,535 (R55, R144). -/
def bump (n : Nat) : Nat := if n < 65535 then n + 1 else 65535

/-! ## Notices (R196, R205) -/

/-- The URGENT notices (R205). -/
def Notice.isUrgent : Notice → Bool
  | .prepare .. | .fire .. | .ended .. | .free .. | .cancel .. | .missed .. | .conflict .. | .lock .. | .step ..
  | .role .. => true
  | .editDone .. | .airDone .. | .timing .. | .backtime .. | .peer .. | .ready .. | .peerReady .. | .relayIn ..
  | .takeoverBlocked .. | .yieldFailed .. | .configDone .. | .sendFailed .. | .reqRefused .. | .itemReply ..
  | .orderReply .. | .peerReply .. | .ownReply .. | .timingReply .. | .armedReply .. => false

/-- Places of the two notice queues (R196). -/
def urgentPlaces : Nat := 24
def routinePlaces : Nat := 40

/-- A notice joins the tail of its class's queue, or is discarded with that queue's lost flag set (R196). -/
def Port.post (p : Port) (n : Notice) : Port :=
  if n.isUrgent then
    if p.urgent.length < urgentPlaces then { p with urgent := p.urgent ++ [n] } else { p with urgentLost := true }
  else
    if p.routine.length < routinePlaces then { p with routine := p.routine ++ [n] } else { p with routineLost := true }

def State.post (s : State) (n : Notice) : State := s.modPort (·.post n)

def State.postAll (s : State) (ns : List Notice) : State := ns.foldl State.post s

/-! ## The store arbiter (R17, R18) -/

def StoreOp.client : StoreOp → Client
  | .apply | .freezeCopy => .apply
  | .partWrite _ _ | .partRead _ | .shadowCheck | .bankSwap => .sync
  | .rearmRead | .takeoverRead => .scheduler
  | .projectionRead => .timing
  | .itemRead _ | .orderRead => .port

def Store.waiting (st : Store) : Client → Option StoreOp
  | .apply => st.waitApply | .sync => st.waitSync | .scheduler => st.waitScheduler | .timing => st.waitTiming
  | .port => st.waitPort

def Store.setWaiting (st : Store) (c : Client) (w : Option StoreOp) : Store :=
  match c with
  | .apply => { st with waitApply := w }
  | .sync => { st with waitSync := w }
  | .scheduler => { st with waitScheduler := w }
  | .timing => { st with waitTiming := w }
  | .port => { st with waitPort := w }

/-- A grant: the operation holds the store; a freeze copy turns SHADOW's use to COPYING (R19). -/
def Store.start (st : Store) (op : StoreOp) : Store :=
  { st with holder := some op, dropped := false, use := if op = .freezeCopy then .copying else st.use }

/-- The waiting client first in precedence is granted the store (R18). -/
def Store.grantNext (st : Store) : Store :=
  match st.waitApply, st.waitSync, st.waitScheduler, st.waitTiming, st.waitPort with
  | some op, _, _, _, _ => { st with waitApply := none }.start op
  | none, some op, _, _, _ => { st with waitSync := none }.start op
  | none, none, some op, _, _ => { st with waitScheduler := none }.start op
  | none, none, none, some op, _ => { st with waitTiming := none }.start op
  | none, none, none, none, some op => { st with waitPort := none }.start op
  | none, none, none, none, none => st

/-- A request: granted at once when the store is free, else it waits (R18). -/
def Store.request (st : Store) (op : StoreOp) : Store :=
  if st.holder.isNone then st.start op else st.setWaiting op.client (some op)

/-- An operation completes; the first waiting client is granted (R18). -/
def Store.release (st : Store) : Store := { st with holder := none, dropped := false }.grantNext

/-- A client has an operation waiting or in progress (R17). -/
def Store.busy (st : Store) (c : Client) : Bool :=
  (st.waiting c).isSome || (match st.holder with
    | some op => decide (op.client = c)
    | none => false)

/-- A client gives up: its waiting request is removed; an operation of its own in progress goes on, its outcome dropped
(R17, R174, R175). -/
def Store.abandon (st : Store) (c : Client) : Store :=
  let st := st.setWaiting c none
  match st.holder with
  | some op => if op.client = c then { st with dropped := true } else st
  | none => st

def State.request (s : State) (op : StoreOp) : State := s.modStore (·.request op)
def State.release (s : State) : State := s.modStore Store.release

/-! ## The transmit queues (R130, R131, R137) -/

/-- A head is allowed to go: always, but for what needs a place of the apply queue while none is free (R131). -/
def TxMsg.allowed (m : TxMsg) (free : Nat) : Bool := !m.msg.needsPlace || decide (0 < free)

def headAllowed (q : List TxMsg) (free : Nat) : Bool :=
  match q with
  | m :: _ => m.allowed free
  | [] => false

/-- The transmitter arbiter: with no message in flight, the first head allowed to go, URGENT first (R131). -/
def Line.choose (l : Line) (free : Nat) : Line :=
  match l.flight with
  | some _ => l
  | none =>
    if headAllowed l.urgent free then { l with flight := some .urgent }
    else if headAllowed l.routine free then { l with flight := some .routine }
    else if headAllowed l.bulk free then { l with flight := some .bulk }
    else l

/-- The arbiter looks at the heads (R131). -/
def State.arbitrate (s : State) : State := s.modLine (·.choose s.apply.freePlaces)

/-- A message may join its class's queue: in RUN, not muted, and with a free place (R130). -/
def State.canOffer (s : State) (m : OutMsg) : Bool :=
  s.isRun && !s.line.muted && decide ((s.line.queue m.cls).length < m.cls.places)

/-- A message joins the tail of its queue (R130), and the arbiter looks (R131). -/
def State.enqueue (s : State) (m : OutMsg) : State :=
  (s.modLine fun l => l.setQueue m.cls (l.queue m.cls ++ [⟨m, 0, false⟩])).arbitrate

/-- The message in flight: the head of its class's queue. -/
def Line.inFlight (l : Line) : Option TxMsg :=
  match l.flight with
  | some c => (l.queue c).head?
  | none => none

/-- A queue less the messages withdrawn; the head of the class that transmits is only marked (R137). -/
def withdrawFrom (transmitting : Bool) (p : OutMsg → Bool) : List TxMsg → List TxMsg
  | [] => []
  | h :: t =>
    let rest := t.filter fun m => !p m.msg
    if transmitting then (if p h.msg then { h with withdrawn := true } else h) :: rest
    else if p h.msg then rest else h :: rest

/-- The messages a withdrawal takes out of a queue. -/
def withdrawnOf (transmitting : Bool) (p : OutMsg → Bool) : List TxMsg → List OutMsg
  | [] => []
  | h :: t => ((if transmitting then t else h :: t).filter fun m => p m.msg).map (·.msg)

/-- Class `c` transmits now. -/
def Line.sendsFrom (l : Line) (c : TxClass) : Bool := l.transmitting && decide (l.flight = some c)

/-- The messages that a withdrawal removes at once, URGENT first (log 25). -/
def Line.withdrawn (l : Line) (p : OutMsg → Bool) : List OutMsg :=
  withdrawnOf (l.sendsFrom .urgent) p l.urgent ++ withdrawnOf (l.sendsFrom .routine) p l.routine
    ++ withdrawnOf (l.sendsFrom .bulk) p l.bulk

/-- Withdrawal (R137): the messages leave their queues; one in flight leaves flight and its back-off is dropped. -/
def Line.withdraw (l : Line) (p : OutMsg → Bool) : Line :=
  let hit := !l.transmitting && (match l.inFlight with
    | some m => p m.msg
    | none => false)
  { l with
    urgent := withdrawFrom (l.sendsFrom .urgent) p l.urgent
    routine := withdrawFrom (l.sendsFrom .routine) p l.routine
    bulk := withdrawFrom (l.sendsFrom .bulk) p l.bulk
    flight := if hit then none else l.flight
    backoff := if hit then none else l.backoff }

def State.withdraw (s : State) (p : OutMsg → Bool) : State := (s.modLine (·.withdraw p)).arbitrate

/-- SEND_FAILED for the kinds R135 names; nothing for PRESENCE, MARK and PART (R205). -/
def State.sendFailed (s : State) (m : OutMsg) (r : FailReason) : State :=
  if m.isPresence || m.isMark || m.isPart then s else s.post (.sendFailed m r)

def State.sendFailedAll (s : State) (ms : List OutMsg) (r : FailReason) : State :=
  ms.foldl (fun s m => s.sendFailed m r) s

end Sys2Proof.Machine
end

