-- ==== Sys2Proof/Machine/Pips.lean ====
section
/-! DEFINITION. The pip sequencers of the output unit and the pips of a count-in (R106 to R109). -/

namespace Sys2Proof.Machine

/-- The pips of a count-in of `n` pips ending on `fire` (R106): pip k on fire − (n − k) × s, the last one long. -/
def countIn (second : Nat) (n : Nat) (fire : Frame) : List Pip :=
  (List.range n).map fun i => ⟨fire - BitVec.ofNat 32 ((n - 1 - i) * second), decide (i + 1 = n)⟩

def Pip.occupancy (second : Nat) (p : Pip) : Nat := if p.long then longOccupancy second else shortOccupancy second

/-- The last frame a pip occupies (R106). -/
def Pip.last (second : Nat) (p : Pip) : Frame := p.frame + BitVec.ofNat 32 (p.occupancy second - 1)

/-- The span of kept pips: from the first frame occupied through the last (R106). -/
def spanOf (second : Nat) (kept : List Pip) : Option (Frame × Frame) :=
  match kept.head?, kept.getLast? with
  | some a, some b => some (a.frame, b.last second)
  | _, _ => none

/-- A pip occupies a frame inside a span (R109, step 1). -/
def Pip.meets (second : Nat) (p : Pip) (span : Frame × Frame) : Bool :=
  atOrBefore p.frame span.2 && atOrBefore span.1 (p.last second)

/-- Steps 1 and 2 of the overlap test against the spans of the earlier entries on the line (R109). -/
def keepPips (second : Nat) (pips : List Pip) (spans : List (Frame × Frame)) : List Pip :=
  let left := pips.filter fun p => !(spans.any fun sp => p.meets second sp)
  spans.foldl (fun ps sp =>
    if ps.any (fun p => earlier p.frame sp.1) && ps.any (fun p => later p.frame sp.2) then
      ps.filter fun p => !earlier p.frame sp.1
    else ps) left

/-- A sequencer with nothing left to start or sounding is idle (R108). -/
def Playing.settle (p : Playing) : Option Playing :=
  if p.waiting.isEmpty && p.sounding.isNone then none else some p

/-- The kept pips not yet started whose frame is now or earlier start, the last of them sounding (R108). -/
def Playing.startDue (p : Playing) (now : Frame) (clock : Nat) : Playing :=
  let due := p.waiting.takeWhile fun x => atOrBefore x.frame now
  match due.getLast? with
  | none => p
  | some x => { p with waiting := p.waiting.drop due.length, sounding := some ⟨x, clock⟩ }

def Output.setPip (o : Output) (line : Fin 2) (p : Option Playing) : Output := { o with pips := o.pips.set line p }

/-- One sequencer's playing state replaced; an idle one stays idle. -/
def Output.modPip (o : Output) (line : Fin 2) (f : Playing → Option Playing) : Output :=
  match o.pips[line] with
  | some p => o.setPip line (f p)
  | none => o

/-- Both sequencers' playing states replaced. -/
def Output.modPips (o : Output) (f : Playing → Option Playing) : Output := (o.modPip 0 f).modPip 1 f

/-- The sequence of one entry replaced, on whichever line it plays. -/
def Output.modSequence (o : Output) (item : ItemId) (slot : Fin 16) (f : Playing → Option Playing) : Output :=
  o.modPips fun p => if p.item = item ∧ p.slot = slot then f p else some p

/-- Due pips start on one line (R108); the station's time must be usable. -/
def Output.startPips (o : Output) (line : Fin 2) (now : Frame) (clock : Nat) : Output :=
  o.modPip line fun p => (p.startDue now clock).settle

/-- Hand-over of an entry's kept pips: playing, the first whose frame is now sounding at once (R108). A pip that still sounds of a
sequence withdrawn while time was not usable ends here (log 17). -/
def Output.handOver (o : Output) (line : Fin 2) (item : ItemId) (slot : Fin 16) (count : Nat) (fire : Frame)
    (kept : List Pip) (stop : Option Frame) (now : Frame) (clock : Nat) : Output :=
  o.setPip line (((⟨item, slot, count, fire, kept, kept, stop, none, false⟩ : Playing).startDue now clock).settle)

/-- A cut of the entry at frame F: kept pips on F or later are dropped (R92, R108). Where F is reached already and such a pip
sounds, it sounds on to the next frame pulse (log 42). -/
def Playing.cutAt (f : Frame) (p : Playing) : Option Playing :=
  let before (x : Pip) : Bool := earlier x.frame f
  ({ p with stop := some f, kept := p.kept.filter before, waiting := p.waiting.filter before } : Playing).settle

/-- The sequence is withdrawn: at once while time is usable, else when its sounding pip has completed (R108). One whose pip is
to complete already goes on so. -/
def Playing.withdraw (usable : Bool) (p : Playing) : Option Playing :=
  if usable ∧ p.withdrawn = false then none else ({ p with waiting := [], withdrawn := true } : Playing).settle

/-- At the frame pulse of the stop frame a sounding pip stops (R108). In a sequence withdrawn while time was not usable the
pip completes its own length. -/
def Playing.stopAt (now : Frame) (p : Playing) : Option Playing :=
  match p.stop with
  | some f =>
    if atOrAfter now f ∧ p.withdrawn = false then ({ p with sounding := none } : Playing).settle else some p
  | none => some p

/-- Usable time returns: kept pips whose frames have passed are dropped. Where the stop frame of a cut has passed meanwhile, a
pip still sounding completes its own length, though the sequence is withdrawn (R108; log 27). Both are judged by the frame of the
return alone (log 42): a kept pip that was passed meanwhile and is to come again after a backward correction plays, and a pip that
sounded through the pulse of a stop frame that is still the present one stops with the withdrawal. -/
def Playing.dropPassed (now : Frame) (p : Playing) : Option Playing :=
  let passed (x : Pip) : Bool := p.waiting.contains x && earlier x.frame now
  ({ p with
    kept := p.kept.filter (!passed ·)
    waiting := p.waiting.filter (!passed ·)
    withdrawn := p.withdrawn || p.stop.any (earlier · now) } : Playing).settle

/-- A sounding pip whose length has run out stops (R107, R108). -/
def Playing.endPip (clock : Nat) (p : Playing) : Option Playing :=
  match p.sounding with
  | some x => if pipLength x.pip.long ≤ clock - x.since then ({ p with sounding := none } : Playing).settle else some p
  | none => some p

end Sys2Proof.Machine
end

