-- ==== Sys2Proof/Machine/Entries.lean ====
section
/-! DEFINITION. The armed table as a table: an entry's frames and next action, table order, spacing, and the resource moves
(R72 to R78, R81). -/

namespace Sys2Proof.Machine

/-- The part of the state that the cue scheduler acts on: its own, the sequencers it hands count-ins to, and the notices. -/
structure Emit where
  sched : Scheduler
  out : Output
  port : Port
  deriving DecidableEq, Repr

/-- A scheduler action on the station. -/
def State.emit (s : State) (f : Env → Emit → Emit) : State :=
  let r := f s.env ⟨s.sched, s.out, s.port⟩
  { s with sched := r.sched, out := r.out, port := r.port }

def Emit.post (m : Emit) (n : Notice) : Emit := { m with port := m.port.post n }
def Emit.modSched (m : Emit) (f : Scheduler → Scheduler) : Emit := { m with sched := f m.sched }
def Emit.modOut (m : Emit) (f : Output → Output) : Emit := { m with out := f m.out }

/-! ## Entries -/

def Entry.key (e : Entry) : EntryKey := (e.item, e.cue.slot)

/-- The resource a FIRE cue names. -/
def Cue.resource (c : Cue) : Option (Fin 16) :=
  match c.body with
  | .fire r _ _ => some r
  | .light _ _ | .pips _ _ | .marker => none

/-- Lengths of a FIRE or LIGHT cue; none for the other kinds. -/
def Cue.lengths (c : Cue) : Option Lengths :=
  match c.body with
  | .fire _ _ l | .light _ l => l
  | .pips _ _ | .marker => none

def Cue.isLight (c : Cue) : Bool :=
  match c.body with
  | .light _ _ => true
  | .fire _ _ _ | .pips _ _ | .marker => false

def Cue.isMarker (c : Cue) : Bool :=
  match c.body with
  | .marker => true
  | .fire _ _ _ | .pips _ _ | .light _ _ => false

/-- The length in force (R73). -/
def Cue.lengthInForce (c : Cue) (short : Bool) : Option Half :=
  match c.lengths with
  | none => none
  | some l => some (if short then l.short.getD l.full else l.full)

/-- Parameters of a resource (R76). -/
def Env.params (env : Env) (r : Fin 16) : ResourceParams := env.cfg.resources[r]

/-- A byte or count as a number of frames. -/
def frames (n : Nat) : Frame := BitVec.ofNat 32 n

/-- The frame of the key action (R84): a FIRE's start, a LIGHT's on, a PIPS's first kept pip, a MARKER's notify. -/
def Entry.keyFrame (e : Entry) : Option Frame :=
  match e.cue.body with
  | .pips _ _ => e.kept.head?.map (·.frame)
  | .fire _ _ _ | .light _ _ | .marker => e.fire

/-- The notify frame of a FIRE entry, fire frame − advance (R74). -/
def Entry.notifyFrame (env : Env) (e : Entry) (r : Fin 16) : Option Frame :=
  e.fire.map fun f => f - frames (env.params r).advance

/-- The prepare of a FIRE entry has not been taken (R74, R78). -/
def Entry.awaitsPrepare (e : Entry) : Bool := decide (e.state = .armed) && e.prepare.isSome

/-- The warn frame of an ARMED LIGHT entry, unless it is later than the fire frame (R74). -/
def Entry.warnDue (e : Entry) : Option Frame :=
  match e.warn, e.fire with
  | some w, some f => if later w f then none else some w
  | w, _ => w

/-- The next action frame (R72, R74). -/
def Entry.nextAction (env : Env) (e : Entry) : Option Frame :=
  match e.state with
  | .held => none
  | .running => e.endFrame
  | .armed =>
    match e.cue.body with
    | .fire r _ _ =>
      if e.prepare.isSome then e.prepare else if e.notified then e.fire else e.notifyFrame env r
    | .light _ _ => if e.warnDue.isSome then e.warnDue else e.fire
    | .pips _ _ | .marker => e.keyFrame
  | .prepared =>
    match e.cue.body with
    | .fire r _ _ => if e.notified then e.fire else e.notifyFrame env r
    | .light _ _ | .pips _ _ | .marker => e.keyFrame

/-- Ascending item id, then ascending slot. -/
def keyBefore (a b : EntryKey) : Bool :=
  decide (a.1.toNat < b.1.toNat) || (decide (a.1 = b.1) && decide (a.2 < b.2))

/-- Table order (R72). -/
def Entry.before (env : Env) (a b : Entry) : Bool :=
  match a.nextAction env, b.nextAction env with
  | some x, some y => earlier x y || (decide (x = y) && keyBefore a.key b.key)
  | some _, none => true
  | none, some _ => false
  | none, none => keyBefore a.key b.key

/-- An entry put in its place among sorted ones. -/
def insertEntry (env : Env) (e : Entry) : List Entry → List Entry
  | [] => [e]
  | x :: r => if e.before env x then e :: x :: r else x :: insertEntry env e r

/-- The table in table order. -/
def sortEntries (env : Env) (es : List Entry) : List Entry := es.foldr (insertEntry env) []

/-- Entries of the armed table at most (R72). -/
def armedPlaces : Nat := 32

def Scheduler.find (sc : Scheduler) (k : EntryKey) : Option Entry := sc.armed.find? fun e => decide (e.key = k)

/-- The table replaced, in table order. -/
def Emit.setArmed (env : Env) (es : List Entry) (m : Emit) : Emit :=
  m.modSched fun sc => { sc with armed := sortEntries env es }

/-- The entry of this name replaced; an entry that is not in the table stays out. -/
def Emit.replace (env : Env) (e : Entry) (m : Emit) : Emit :=
  m.setArmed env (m.sched.armed.map fun x => if x.key = e.key then e else x)

/-- The entry of this name leaves the table. -/
def Emit.drop (env : Env) (k : EntryKey) (m : Emit) : Emit :=
  m.setArmed env (m.sched.armed.filter fun x => decide (x.key ≠ k))

/-- The entry joins the table in place of any of its name, while fewer than 32 others stand (R72). -/
def Emit.put (env : Env) (e : Entry) (m : Emit) : Emit :=
  let others := m.sched.armed.filter fun x => decide (x.key ≠ e.key)
  if others.length < armedPlaces then m.setArmed env (e :: others) else m

/-! ## Resources (R76, R77) -/

def Emit.resource (m : Emit) (r : Fin 16) : Resource := m.sched.resources[r]

def Emit.setResource (m : Emit) (r : Fin 16) (x : Resource) : Emit :=
  m.modSched fun sc => { sc with resources := sc.resources.set r x }

def Emit.holds (m : Emit) (r : Fin 16) (k : EntryKey) : Bool := decide ((m.resource r).holder = some k)

/-- A resource whose recovery-until has come is IDLE (R77). -/
def Resource.recover (now : Frame) (x : Resource) : Resource :=
  match x.state, x.recoveryUntil with
  | .recovering, some f => if atOrAfter now f then { x with state := .idle } else x
  | _, _ => x

def Emit.recoverAll (env : Env) (m : Emit) : Emit :=
  m.modSched fun sc => { sc with resources := sc.resources.map (·.recover env.now) }

/-- A preparation is given back (R77): its holder cancelled, refused or missed. -/
def Emit.releasePrepared (r : Fin 16) (k : EntryKey) (m : Emit) : Emit :=
  let x := m.resource r
  if x.state = .prepared ∧ x.holder = some k then m.setResource r { x with state := .idle, holder := none } else m

/-- The holder of a BUSY resource ends (R77, R87). -/
def Emit.releaseEnded (env : Env) (r : Fin 16) (k : EntryKey) (m : Emit) : Emit :=
  let x := m.resource r
  if x.state = .busy ∧ x.holder = some k then
    m.setResource r { x with state := if (env.params r).recovery = 0 then .idle else .recovering, holder := none }
  else m

/-- The holder of a BUSY resource is cancelled while RUNNING (R77). -/
def Emit.releaseCancelled (env : Env) (r : Fin 16) (k : EntryKey) (m : Emit) : Emit :=
  let x := m.resource r
  if x.state = .busy ∧ x.holder = some k then
    m.setResource r { x with
      state := .recovering, holder := none, recoveryUntil := some (env.now + frames (env.params r).recovery.toNat) }
  else m

/-- The end frame of an entry as FIRE uses it, and the end of its span: end frame + recovery (R81). -/
def Entry.spanEnd (env : Env) (r : Fin 16) (e : Entry) : Option Frame :=
  e.endFrame.map fun f => f + frames (env.params r).recovery.toNat

/-- A frame lies in the half-open span from `a` up to `b`. -/
def inSpan (x a b : Frame) : Bool := atOrAfter x a && earlier x b

/-! ## Spacing (R81) -/

/-- The other FIRE entries with a fire frame, with their resource. -/
def Emit.otherFires (m : Emit) (k : EntryKey) : List (Fin 16 × Frame × Entry) :=
  m.sched.armed.filterMap fun e =>
    if e.key = k then none else match e.cue.resource, e.fire with
      | some r, some f => some (r, f, e)
      | _, _ => none

/-- The first condition of R81 that fails for fire frame `g` of the cue `k` on resource `r` with length `len` frames, or none. -/
def Emit.spacing (env : Env) (m : Emit) (k : EntryKey) (r : Fin 16) (len : Nat) (g : Frame) : Option ConflictReason :=
  let p := env.params r
  let x := m.resource r
  let others := m.otherFires k
  let apart (gap : Nat) (f : Frame) : Bool := decide (gap ≤ distance g f)
  let top := g + frames len + frames p.recovery.toNat
  let repeatOk := others.all (fun o => decide (o.1 ≠ r) || apart p.repeatGap.toNat o.2.1)
    && (match x.lastFire with
        | some f => apart p.repeatGap.toNat f
        | none => true)
  let spanOk := others.all (fun o => decide (o.1 ≠ r) || (!inSpan o.2.1 g top && (match o.2.2.spanEnd env r with
        | some b => !inSpan g o.2.1 b
        | none => true)))
    && (match x.recoveryUntil with
        | some f => !earlier g f
        | none => true)
  let gap := (env.cfg.groupGaps[p.group]).toNat
  let groupOk := others.all (fun o => decide (o.1 = r) || decide ((env.params o.1).group ≠ p.group) || apart gap o.2.1)
    && (match m.sched.groups[p.group] with
        | some (f, r') => decide (r' = r) || apart gap f
        | none => true)
  if !repeatOk then some .repeatGap else if !spanOk then some .span else if !groupOk then some .groupGap else none

/-- The least deferral of 1 to 250 frames that makes the frame legal (R82). -/
def Emit.deferral (env : Env) (m : Emit) (k : EntryKey) (r : Fin 16) (len : Nat) (planned : Frame) : Option Nat :=
  ((List.range 250).map (· + 1)).find? fun d => (m.spacing env k r len (planned + frames d)).isNone

/-- Deferral of a FIRE cue, or why it is refused (R81, R82). -/
def Emit.space (env : Env) (m : Emit) (k : EntryKey) (r : Fin 16) (hard : Bool) (len : Nat) (planned : Frame) :
    Except ConflictReason Nat :=
  match m.spacing env k r len planned with
  | none => .ok 0
  | some why =>
    if hard then .error why
    else match m.deferral env k r len planned with
      | some d => .ok d
      | none => .error .deferLimit

end Sys2Proof.Machine
end

