-- ==== Sys2Proof/Machine/Scheduler.lean ====
section
/-! DEFINITION. The cue scheduler: the scan and the late rule (R84 to R90), cancelling and cutting (R91 to R95), arming
(R79 to R83, R96), and a pair member's tracking and takeover (R187 to R192). Every action maps the scheduler's own part of
the state, `Emit`, under what it reads of the others, `Env`. -/

namespace Sys2Proof.Machine

/-! ## Notices under SHADOW (R188) -/

/-- The resource of the cue is mirrored. -/
def Cue.mirrored (env : Env) (c : Cue) : Bool :=
  match c.resource with
  | some r => (env.params r).mirror
  | none => false

/-- A FIRE or END notice of an entry: in SHADOW only for a FIRE on a mirrored resource (R188). -/
def Emit.postFire (env : Env) (e : Entry) (n : Notice) (m : Emit) : Emit :=
  if e.flags.shadow && !e.cue.mirrored env then m else m.post n

/-- A FREE, CANCEL, MISSED or CONFLICT notice: none in SHADOW (R188). -/
def Emit.postOpen (shadow : Bool) (n : Notice) (m : Emit) : Emit := if shadow then m else m.post n

/-- The FIRE notice of an entry (R86, R88). -/
def Entry.fireNotice (e : Entry) (f : Frame) : Notice :=
  .fire e.item e.cue.slot e.cue.resource f e.length e.flags
    (if e.flags.deferred then some e.deferral else none) (if e.flags.joined then e.joinOffset else none) e.cue.param

/-! ## Shadow records (R189) -/

/-- Records of the shadow list at most. -/
def shadowPlaces : Nat := 16

/-- The record of a FIRE or MARKER entry that leaves the table in SHADOW other than by cancellation (R189): with 16 in the list none,
and the overflow mark is set; else it stands last, in place of one of its name (log 16). -/
def Emit.record (env : Env) (e : Entry) (m : Emit) : Emit :=
  match e.fire with
  | none => m
  | some f =>
    if !e.flags.shadow || !(e.cue.resource.isSome || e.cue.isMarker) then m else
    m.modSched fun sc =>
      if sc.shadowList.length < shadowPlaces then
        { sc with shadowList := (sc.shadowList.filter fun r => decide ((r.item, r.cue.slot) ≠ e.key))
            ++ [⟨e.item, e.cue, e.cue.mirrored env, f, e.endFrame, f, e.length, e.flags⟩] }
      else { sc with overflow := true }

/-- Shadow records leave the list; an empty list has no overflow mark (R189). -/
def Scheduler.keepRecords (sc : Scheduler) (p : ShadowRec → Bool) : Scheduler :=
  let list := sc.shadowList.filter p
  { sc with shadowList := list, overflow := sc.overflow && !list.isEmpty }

/-! ## Actions (R85 to R88) -/

/-- Another entry on the resource stands ahead in the table and has not started (R78). -/
def aheadOn (r : Fin 16) (k : EntryKey) : List Entry → Bool
  | [] => false
  | e :: rest =>
    if e.key = k then false
    else (decide (e.cue.resource = some r) && decide (e.state ≠ .running)) || aheadOn r k rest

/-- The prepare is due and R78 allows it. -/
def Emit.mayPrepare (env : Env) (m : Emit) (e : Entry) (r : Fin 16) : Bool :=
  e.awaitsPrepare && (match e.prepare with
    | some f => atOrBefore f env.now
    | none => false)
  && decide ((m.resource r).state = .idle) && !aheadOn r e.key m.sched.armed

/-- A prepare, when due and allowed (R78, R85). -/
def Emit.takePrepare (env : Env) (e : Entry) (r : Fin 16) (m : Emit) : Emit :=
  if m.mayPrepare env e r then
    ((m.setResource r { m.resource r with state := .prepared, holder := some e.key }).replace env
      { e with state := .prepared, preparedAt := some env.now }).post (.prepare e.item e.cue.slot r e.fire e.cue.param)
  else m

/-- The resource was not held for the full preroll by fire frame `f` (R86). -/
def Entry.shortPreroll (env : Env) (e : Entry) (r : Fin 16) (f : Frame) : Bool :=
  let preroll := (env.params r).preroll.toNat
  decide (0 < preroll) && (decide (e.state ≠ .prepared) || (match e.preparedAt with
    | some p => later p (f - frames preroll)
    | none => true))

/-- The notify of a FIRE entry (R86), withheld in SHADOW on a resource without mirror (R188). The entry is notified from its notify
on, withheld or not, and READ_ARMED shows it so (log 46). -/
def Emit.notify (env : Env) (e : Entry) (r : Fin 16) (f : Frame) (m : Emit) : Emit :=
  let e := { e with
    notified := true
    flags := { e.flags with shortPreroll := e.flags.shortPreroll || e.shortPreroll env r f }
    withheld := e.flags.shadow && !(env.params r).mirror }
  (m.replace env e).postFire env e (e.fireNotice f)

/-- A FIRE's notify when due and not yet taken. -/
def Emit.takeNotify (env : Env) (e : Entry) (r : Fin 16) (m : Emit) : Emit :=
  match e.fire, e.notifyFrame env r with
  | some f, some n => if !e.notified && atOrBefore n env.now then m.notify env e r f else m
  | _, _ => m

/-- The holder of a PREPARED resource loses its preparation to a start (R78). R78 speaks of an entry PREPARED; one that is HELD
stays HELD, its previous state becoming ARMED (log 27). -/
def Emit.withdrawPreparation (env : Env) (r : Fin 16) (k : EntryKey) (m : Emit) : Emit :=
  let x := m.resource r
  match x.holder with
  | none => m
  | some h =>
    if x.state ≠ .prepared ∨ h = k then m else
    match m.sched.find h with
    | none => m
    | some o =>
      let back := if o.state = .held then { o with previous := some .armed, preparedAt := none }
        else { o with state := .armed, preparedAt := none }
      (m.replace env back).postOpen o.flags.shadow
        (.cancel o.item o.cue .prepareWithdrawn (o.notified && !o.withheld) false true)

/-- The start of a FIRE entry (R77, R78, R86). -/
def Emit.startFire (env : Env) (e : Entry) (r : Fin 16) (f : Frame) (m : Emit) : Emit :=
  let m := m.withdrawPreparation env r e.key
  let m := m.setResource r ⟨.busy, some e.key, some f, e.spanEnd env r⟩
  let m := m.modSched fun sc => { sc with groups := sc.groups.set (env.params r).group (some (f, r)) }
  m.replace env { e with state := .running }

/-- END and, on an auto-release resource, FREE (R87). -/
def Emit.postEnd (env : Env) (e : Entry) (r : Fin 16) (m : Emit) : Emit :=
  match e.endFrame with
  | none => m
  | some f =>
    let m := m.postFire env e (.ended e.item e.cue.slot r f e.cue.param e.flags.cut)
    if (env.params r).autoRelease then m.postOpen e.flags.shadow (.free r e.item e.cue.slot e.cue.param) else m

/-- The end of a RUNNING entry (R87, R88). -/
def Emit.finish (env : Env) (e : Entry) (m : Emit) : Emit :=
  match e.cue.body with
  | .fire r _ _ => (((m.postEnd env e r).releaseEnded env r e.key).record env e).drop env e.key
  | .pips _ _ => (m.modOut fun o => o.modSequence e.item e.cue.slot (Playing.withdraw env.usable)).drop env e.key
  | .light _ _ | .marker => m.drop env e.key

/-- The notify of a MARKER entry, after which it leaves the table (R88). -/
def Emit.markerActs (env : Env) (e : Entry) (f : Frame) (m : Emit) : Emit :=
  ((m.postFire env e (e.fireNotice f)).record env e).drop env e.key

/-- Hand-over of a PIPS entry's sequence (R88, R108). -/
def Emit.playPips (env : Env) (e : Entry) (line : Fin 2) (count : Nat) (kept : List Pip) (m : Emit) : Emit :=
  (m.modOut fun o => o.handOver line e.item e.cue.slot count (e.fire.getD 0) kept
    (if e.flags.cut then e.endFrame else none) env.now env.clock).replace env { e with state := .running }

/-! ## The late rule (R89) -/

/-- The frame the late rule measures from: the fire frame; for a PIPS entry its last kept pip. -/
def Entry.lateFrom (e : Entry) : Option Frame :=
  match e.cue.body with
  | .pips _ _ => e.kept.getLast?.map (·.frame)
  | .fire _ _ _ | .light _ _ | .marker => e.fire

/-- Case 1 applies: the end is still to come, or a LIGHT has none yet. -/
def Entry.canJoin (env : Env) (e : Entry) : Bool :=
  match e.endFrame with
  | some f => later f env.now
  | none => e.cue.isLight

/-- Case 1. The entry acts now, JOINED. A MARKER has an end frame once it is cut (R92), and then posts its notice so. -/
def Emit.join (env : Env) (e : Entry) (from_ : Frame) (m : Emit) : Emit :=
  let e := { e with flags := { e.flags with joined := true }, joinOffset := some (env.now - from_) }
  let m := m.replace env e
  match e.cue.body, e.fire with
  | .fire r _ _, some f =>
    let m := m.takePrepare env e r
    let m := m.notify env ((m.sched.find e.key).getD e) r f
    m.startFire env ((m.sched.find e.key).getD e) r f
  | .pips line count, _ => m.playPips env e line count (e.kept.filter fun p => !earlier p.frame env.now)
  | .light _ _, _ => m.replace env { e with state := .running }
  | .marker, some f => m.markerActs env e f
  | _, none => m

/-- The resource is BUSY for a RUNNING entry of the table (R77). -/
def Emit.inUse (m : Emit) (r : Fin 16) : Bool :=
  decide ((m.resource r).state = .busy) && m.sched.armed.any fun x => decide (x.state = .running) && m.holds r x.key

/-- A FIRE settled as late passes through BUSY, and its resource recovers until its end frame + recovery (R89). One that is BUSY for a
RUNNING entry, as one that joined earlier in the scan, is left to that entry, with its last fire and the history of its group (log 15). -/
def Emit.passBusy (env : Env) (e : Entry) (r : Fin 16) (f : Frame) (m : Emit) : Emit :=
  if m.inUse r then m else
  let m := m.startFire env e r f
  let x := m.resource r
  let recovered := match x.recoveryUntil with
    | some u => atOrBefore u env.now
    | none => true
  m.setResource r { x with
    state := if (env.params r).recovery = 0 || recovered then .idle else .recovering, holder := none }

/-- Case 2. The entry acts with LATE; a FIRE passes through BUSY and ends in the same scan. The FLASH claim of a LIGHT entry that
was warned goes as the entry leaves (log 27). -/
def Emit.actLate (env : Env) (e : Entry) (m : Emit) : Emit :=
  let e := { e with flags := { e.flags with late := true } }
  match e.cue.body, e.fire with
  | .fire r _ _, some f =>
    let m := (m.replace env e).notify env e r f
    let e := (m.sched.find e.key).getD e
    (((m.passBusy env e r f).postEnd env e r).record env e).drop env e.key
  | .marker, some f => (m.replace env e).markerActs env e f
  | _, _ => m.drop env e.key

/-- Case 3. The entry is missed; for a PIPS entry the fire frame of this rule is that of its last kept pip. The FLASH claim of a
LIGHT entry that was warned goes as the entry leaves (log 27). -/
def Emit.miss (env : Env) (e : Entry) (from_ : Frame) (m : Emit) : Emit :=
  let m := m.postOpen e.flags.shadow (.missed e.item e.cue .tooLate (some from_) (some (env.now - from_)))
  let m := match e.cue.resource with
    | some r => m.releasePrepared r e.key
    | none => m
  (m.record env e).drop env e.key

def Emit.settleLate (env : Env) (e : Entry) (m : Emit) : Emit :=
  match e.lateFrom with
  | none => m
  | some f =>
    if e.canJoin env then m.join env e f
    else if fdiff env.now f ≤ 8 then m.actLate env e
    else m.miss env e f

/-! ## The scan (R84) -/

/-- The key action of an entry, on its frame. -/
def Emit.keyAction (env : Env) (e : Entry) (m : Emit) : Emit :=
  match e.cue.body, e.fire with
  | .fire r _ _, some f => m.startFire env e r f
  | .light _ _, _ => m.replace env { e with state := .running }
  | .pips line count, _ => m.playPips env e line count e.kept
  | .marker, some f => m.markerActs env e f
  | _, none => m

/-- The actions before the key action whose frames have come. -/
def Emit.preActions (env : Env) (e : Entry) (m : Emit) : Emit :=
  match e.cue.body with
  | .fire r _ _ =>
    let m := m.takePrepare env e r
    m.takeNotify env ((m.sched.find e.key).getD e) r
  | .light _ _ =>
    if e.state = .armed then match e.warnDue with
      | some w => if atOrBefore w env.now then m.replace env { e with state := .prepared } else m
      | none => m
    else m
  | .pips _ _ | .marker => m

/-- One entry's actions in a scan, ends apart (R84). -/
def Emit.actOn (env : Env) (m : Emit) (k : EntryKey) : Emit :=
  match m.sched.find k with
  | none => m
  | some e =>
    if e.state = .held ∨ e.state = .running then m else
    match e.keyFrame with
    | none => m.preActions env e
    | some f =>
      if earlier f env.now then m.settleLate env e
      else
        let m := m.preActions env e
        if f = env.now then m.keyAction env ((m.sched.find k).getD e) else m

/-- One entry's end action, when due. -/
def Emit.endOf (env : Env) (m : Emit) (k : EntryKey) : Emit :=
  match m.sched.find k with
  | none => m
  | some e => match e.state, e.endFrame with
    | .running, some f => if atOrBefore f env.now then m.finish env e else m
    | _, _ => m

def Emit.keys (m : Emit) : List EntryKey := m.sched.armed.map Entry.key

/-- A scan (R84): recoveries, then every due end, then the other due actions, each in table order; the scan completed moves the
done-through frame of a driving station (R187). That the ends come before notifies and warns too, where R84 names prepares and
starts, is log 27. The caller knows that gallery time is usable. -/
def Emit.scan (env : Env) (m : Emit) : Emit :=
  let m := m.recoverAll env
  let m := m.keys.foldl (·.endOf env ·) m
  let m := m.keys.foldl (·.actOn env ·) m
  if env.role = .standby then m else m.modSched fun sc => { sc with doneThrough := some env.now }

/-- A scan where gallery time is usable; else nothing (R84, R90). -/
def Emit.scanIfUsable (env : Env) (m : Emit) : Emit := if env.usable then m.scan env else m

/-! ## Cancelling and cutting (R91 to R93) -/

/-- The entry holds its resource PREPARED. -/
def Emit.prepares (m : Emit) (e : Entry) : Bool :=
  match e.cue.resource with
  | some r => decide ((m.resource r).state = .prepared) && m.holds r e.key
  | none => false

/-- An entry leaves the table before its end and gives back what it holds: a preparation, a BUSY resource, RECOVERING from now (R77), or
its pip sequence (R91). Its light claim goes with it. -/
def Emit.giveBack (env : Env) (e : Entry) (m : Emit) : Emit :=
  (match e.cue.body with
    | .fire r _ _ => (m.releasePrepared r e.key).releaseCancelled env r e.key
    | .pips _ _ => m.modOut fun o => o.modSequence e.item e.cue.slot (Playing.withdraw env.usable)
    | .light _ _ | .marker => m).drop env e.key

/-- Cancellation of one entry (R91). -/
def Emit.cancel (env : Env) (cause : CancelCause) (m : Emit) (k : EntryKey) : Emit :=
  match m.sched.find k with
  | none => m
  | some e => (m.giveBack env e).postOpen e.flags.shadow
      (.cancel e.item e.cue cause (e.notified && !e.withheld) (decide (e.state = .running)) (m.prepares e))

def Emit.cancelWhere (env : Env) (cause : CancelCause) (p : Entry → Bool) (m : Emit) : Emit :=
  ((m.sched.armed.filter p).map Entry.key).foldl (·.cancel env cause ·) m

/-- Cancellation of an item's entries, with its shadow records (R91, R93, R189). -/
def Emit.cancelItem (env : Env) (cause : CancelCause) (id : ItemId) (m : Emit) : Emit :=
  (m.cancelWhere env cause fun e => decide (e.item = id)).modSched (·.keepRecords fun r => decide (r.item ≠ id))

/-- A cut at frame F (R92): the end becomes F with CUT; a LIGHT without a length takes F without CUT. -/
def Emit.cut (env : Env) (f : Frame) (e : Entry) (m : Emit) : Emit :=
  if e.cue.isLight && e.cue.lengths.isNone then m.replace env { e with endFrame := some f } else
  let m := m.replace env { e with
    endFrame := some f
    flags := { e.flags with cut := true }
    kept := e.kept.filter fun p => earlier p.frame f }
  match e.cue.body with
  | .fire r _ _ =>
    if e.state = .running ∧ m.holds r e.key then
      m.setResource r { m.resource r with recoveryUntil := some (f + frames (env.params r).recovery.toNat) }
    else m
  | .pips _ _ => m.modOut fun o => o.modSequence e.item e.cue.slot (Playing.cutAt f)
  | .light _ _ | .marker => m

/-- One entry of the item made DONE with end frame F (R92). One that has no key action frame, of which R92 does not speak, is
cancelled with ITEM_END like one whose key is F or later (log 37). -/
def Emit.settleDoneEntry (env : Env) (f : Frame) (m : Emit) (k : EntryKey) : Emit :=
  match m.sched.find k with
  | none => m
  | some e =>
    let lateKey := match e.keyFrame with
      | some x => atOrAfter x f
      | none => true
    if e.state = .held || lateKey then m.cancel env .itemEnd k
    else match e.endFrame with
      | some x => if later x f then m.cut env f e else m
      | none => m.cut env f e

/-- The entries of the item made DONE are settled (R92). -/
def Emit.settleDone (env : Env) (id : ItemId) (f : Frame) (m : Emit) : Emit :=
  ((m.sched.armed.filter fun e => decide (e.item = id)).map Entry.key).foldl (·.settleDoneEntry env f ·) m

/-- An item made DONE by an earlier TAKE or CLOSE is no longer the most recently DONE: its entries are cancelled with its
shadow records (R92, R189), and the new one takes its place. -/
def Emit.replaceDone (env : Env) (id : ItemId) (f : Frame) (m : Emit) : Emit :=
  let m := match m.sched.lastDone with
    | some (old, _) => if old = id then m else m.cancelItem env .itemEnd old
    | none => m
  m.modSched fun sc => { sc with lastDone := some (id, f) }

/-! ## Arming (R79 to R83) -/

/-- A new entry of a cue, ARMED, in SHADOW while the role is STANDBY (R98). -/
def newEntry (env : Env) (item : ItemId) (c : Cue) (basis : ItemStatus) : Entry :=
  { item := item, cue := c, length := c.lengthInForce false, basis := basis, planned := none, fire := none, deferral := 0,
    prepare := none, preparedAt := none, warn := none, notified := false, endFrame := none, state := .armed,
    previous := none, flags := { shadow := decide (env.role = .standby) }, joinOffset := none, kept := [],
    withheld := false }

def Emit.full (m : Emit) : Bool := decide (armedPlaces ≤ m.sched.armed.length)

/-- A cue refused at arming (R82, R83): its entry from STANDBY leaves, and a preparation goes back (R77). -/
def Emit.refuse (env : Env) (item : ItemId) (c : Cue) (why : ConflictReason) (planned : Option Frame) (m : Emit) : Emit :=
  let posted (m : Emit) (released : Bool) := m.postOpen (decide (env.role = .standby)) (.conflict item c why planned released)
  match m.sched.find (item, c.slot) with
  | some e => posted (m.giveBack env e) (m.prepares e)
  | none => posted m false

/-- A cue that finds no place (R79, R80). At TAKE the notice carries the planned fire frame, unspaced, and no lateness (R97;
log 27). -/
def Emit.missFull (env : Env) (item : ItemId) (c : Cue) (fire : Option Frame) (m : Emit) : Emit :=
  m.postOpen (decide (env.role = .standby)) (.missed item c .tableFull fire none)

/-- One cue armed at STANDBY (R79). -/
def Emit.armStandby (env : Env) (item : ItemId) (m : Emit) (c : Cue) : Emit :=
  let e := newEntry env item c .standingBy
  match c.body with
  | .fire r _ _ =>
    if (env.params r).preroll = 0 then m
    else if m.full then m.missFull env item c none
    else m.put env { e with prepare := some env.now }
  | .light l _ =>
    if env.cfg.wrapLine = some l then m.refuse env item c .wrapLine none
    else if m.full then m.missFull env item c none
    else m.put env { e with warn := some env.now }
  | .pips _ _ | .marker => m

/-- HELD, where the item is held and the entry's next action lies after the held-at (R94, R96). -/
def Entry.heldIf (env : Env) (heldAt : Option Frame) (e : Entry) : Entry :=
  match heldAt, e.nextAction env with
  | some h, some n => if later n h then { e with state := .held, previous := some e.state } else e
  | _, _ => e

/-- Planned fire frame of a cue of an item on air (R73): start + offset + hold total. -/
def plannedFire (a : Airing) (c : Cue) : Frame := a.start + c.offset.signExtend 32 + a.holdTotal

/-- The spans of the PIPS entries on a line, the cue's own left out (R109). -/
def Emit.spansOn (env : Env) (m : Emit) (line : Fin 2) (k : EntryKey) : List (Frame × Frame) :=
  m.sched.armed.filterMap fun e =>
    match e.cue.body with
    | .pips l _ => if l = line ∧ e.key ≠ k then spanOf env.second e.kept else none
    | .fire _ _ _ | .light _ _ | .marker => none

/-- One cue of the ON_AIR item armed as at TAKE (R80 to R83), HELD where R96 says so. -/
def Emit.armTake (env : Env) (item : ItemId) (a : Airing) (m : Emit) (c : Cue) : Emit :=
  let k : EntryKey := (item, c.slot)
  let planned := plannedFire a c
  let old := m.sched.find k
  if old.isNone && m.full then m.missFull env item c (some planned) else
  let e := { old.getD (newEntry env item c (.onAir a)) with
    basis := .onAir a, planned := some planned, length := c.lengthInForce a.short }
  match c.body with
  | .fire r hard _ =>
    let len := match e.length with
      | some n => n.toNat
      | none => 1
    match m.space env k r hard len planned with
    | .error why => m.refuse env item c why (some planned)
    | .ok d =>
      let f := planned + frames d
      let preroll := (env.params r).preroll.toNat
      m.put env (Entry.heldIf env a.heldAt { e with
        fire := some f, deferral := d, endFrame := some (f + frames len)
        flags := { e.flags with deferred := decide (0 < d) }
        prepare := if e.preparedAt.isSome then e.prepare else if preroll = 0 then none else some (f - frames preroll) })
  | .light l _ =>
    if env.cfg.wrapLine = some l then m.refuse env item c .wrapLine (some planned) else
    m.put env (Entry.heldIf env a.heldAt { e with
      fire := some planned
      warn := if e.state = .armed then some (planned - frames (env.cfg.warnLeads[l]).toNat) else e.warn
      endFrame := e.length.map fun n => planned + frames n.toNat })
  | .pips l n =>
    let all := countIn env.second n planned
    let kept := keepPips env.second all (m.spansOn env l k)
    if kept.isEmpty then m.refuse env item c .pipsOverlap (some planned) else
    m.put env (Entry.heldIf env a.heldAt { e with
      fire := some planned, kept := kept, endFrame := some (planned + frames (longOccupancy env.second))
      flags := { e.flags with trimmed := decide (kept.length < all.length) } })
  | .marker => m.put env (Entry.heldIf env a.heldAt { e with fire := some planned })

def ownedCues (env : Env) (i : Item) : List Cue := i.cues.filter fun c => env.owned.contains c.owner

/-! ## Outcome reports (R50, R79, R80, R92 to R95) -/

/-- The entry is from the STANDBY of the item that is now taken, its cue as the item holds it (R80). -/
def Entry.fromStandby (item : Item) (e : Entry) : Bool := decide (e.basis = .standingBy) && item.cues.contains e.cue

/-- Before the arming of an item its entries that `keep` does not spare are cancelled (R91), as R96 would cancel them. R79 and R80 know
none: they stand from before an adoption whose rearming read is to come, which gives the cause ADOPTION, or from an airing that an EDIT
with a SET_OUT has revived the item from (R93), which gives ITEM_END. The item's shadow records go, and it is no longer the item most
recently DONE (log 37). -/
def Emit.clearFormer (env : Env) (id : ItemId) (keep : Entry → Bool) (m : Emit) : Emit :=
  (m.cancelWhere env (if m.sched.rearmWanted then .adoption else .itemEnd) fun e => decide (e.item = id) && !keep e).modSched
    fun sc => { sc.keepRecords (fun r => decide (r.item ≠ id)) with lastDone := sc.lastDone.filter fun d => decide (d.1 ≠ id) }

/-- STANDBY applied: the item returned to PENDING, then the arming, then a scan (R79). -/
def Emit.onStandby (env : Env) (item : Item) (back : Option ItemId) (m : Emit) : Emit :=
  let m := match back with
    | some id => m.cancelItem env .stoodDown id
    | none => m
  ((ownedCues env item).foldl (·.armStandby env item.id ·) (m.clearFormer env item.id fun _ => false)).scanIfUsable env

/-- The item made DONE, any item returned to PENDING, then any earlier DONE item (R92). With no item made DONE the earlier one
stays the most recently DONE and its entries run on to its end frame (log 27). -/
def Emit.onEnd (env : Env) (done : Option (ItemId × Frame)) (back : Option ItemId) (m : Emit) : Emit :=
  let m := match done with
    | some (id, f) => m.settleDone env id f
    | none => m
  let m := match back with
    | some id => m.cancelItem env .stoodDown id
    | none => m
  let m := match done with
    | some (id, f) => m.replaceDone env id f
    | none => m
  m.modSched fun sc => { sc with holdFrame := none }

/-- TAKE applied (R80, R92). -/
def Emit.onTake (env : Env) (item : Item) (a : Airing) (done : Option (ItemId × Frame)) (back : Option ItemId) (m : Emit) :
    Emit :=
  ((ownedCues env item).foldl (·.armTake env item.id a ·)
    ((m.onEnd env done back).clearFormer env item.id (Entry.fromStandby item))).scanIfUsable env

/-- One entry at HOLD (R94). -/
def Entry.hold (env : Env) (h : Frame) (e : Entry) : Entry :=
  let after := match e.nextAction env with
    | some n => later n h
    | none => false
  if decide (e.state = .armed ∨ e.state = .prepared) && after && !(e.cue.resource.isSome && e.notified) then
    { e with state := .held, previous := some e.state, basis := match e.basis with
        | .onAir a => .onAir { a with heldAt := some h }
        | b => b }
  else e

/-- HOLD applied (R94): `h` is the held-at that the replica took. -/
def Emit.onHold (env : Env) (id : ItemId) (h : Frame) (m : Emit) : Emit :=
  (m.setArmed env (m.sched.armed.map fun e => if e.item = id then e.hold env h else e)).modSched fun sc =>
    { sc with holdFrame := some h }

/-- One HELD entry at RESUME (R95). -/
def Entry.resume (shift : Word) (holdTotal : Word) (e : Entry) : Entry :=
  if e.state ≠ .held then e else
  { e with
    state := e.previous.getD .armed, previous := none
    planned := e.planned.map (· + shift), fire := e.fire.map (· + shift), prepare := e.prepare.map (· + shift)
    warn := e.warn.map (· + shift), endFrame := e.endFrame.map (· + shift)
    kept := e.kept.map fun p => { p with frame := p.frame + shift }
    basis := match e.basis with
      | .onAir a => .onAir { a with heldAt := none, holdTotal := holdTotal }
      | b => b }

/-- RESUME applied (R95): the shift is the resume frame less the hold frame, or 0. -/
def Emit.onResume (env : Env) (id : ItemId) (r : Frame) (holdTotal : Word) (m : Emit) : Emit :=
  let shift := match m.sched.holdFrame with
    | some h => if earlier r h then 0 else r - h
    | none => 0
  ((m.setArmed env (m.sched.armed.map fun e => if e.item = id then e.resume shift holdTotal else e)).modSched fun sc =>
    { sc with holdFrame := none }).scanIfUsable env

/-- EDIT applied (R93): the entries and records of items deleted or revived go. A report that holds a SET_OUT changes no entry; what is
kept beside the entries then is log 27. -/
def Emit.onEdit (env : Env) (gone : List ItemId) (setOut : Bool) (m : Emit) : Emit :=
  if setOut then m else
  (gone.foldl (fun m id => m.cancelItem env .edited id) m).modSched fun sc =>
    { sc with lastDone := match sc.lastDone with
      | some (id, f) => if gone.contains id then none else some (id, f)
      | none => none }

/-! ## Frame pulse (R77, R84, R90, R189) -/

/-- ITEM_END while gallery time is not usable (R90). R90 names no event: an end frame already reached when the CLOSE or TAKE is
applied, or passed by a correction of the counter, cancels at the next frame pulse or ITEM_END_CANCEL (log 27). The shadow records of the item
wait for the frame pulse, here as elsewhere (R189; log 41). -/
def Emit.itemEndCancel (env : Env) (m : Emit) : Emit :=
  match m.sched.lastDone with
  | some (id, f) =>
    if !env.usable && atOrAfter env.now f then m.cancelWhere env .itemEnd fun e => decide (e.item = id) else m
  | none => m

/-- The shadow records of the most recently DONE item leave at its end frame (R189). -/
def Emit.shadowExpire (env : Env) (m : Emit) : Emit :=
  match m.sched.lastDone with
  | some (id, f) => if atOrAfter env.now f then m.modSched (·.keepRecords fun r => decide (r.item ≠ id)) else m
  | none => m

/-- The scheduler's work on a frame pulse. -/
def Emit.pulse (env : Env) (m : Emit) : Emit :=
  (((m.recoverAll env).scanIfUsable env).itemEndCancel env).shadowExpire env

/-! ## Adoption and takeover (R96, R190 to R192) -/

def onAirItem (r : Replica) : Option (Item × Airing) :=
  r.items.findSome? fun i => match i.status with
    | .onAir a => some (i, a)
    | .pending | .standingBy | .done .. | .skipped => none

def standingByItem (r : Replica) : Option Item := r.items.find? fun i => decide (i.status = .standingBy)

/-- Adoption keeps an entry (R96). -/
def keptAtAdoption (r : Replica) (e : Entry) : Bool :=
  r.items.any fun i => decide (i.id = e.item) && decide (i.status = e.basis) && i.cues.contains e.cue
    && (match i.status with
        | .onAir _ | .standingBy => true
        | .pending | .done .. | .skipped => false)

/-- Owned cues of the ON_AIR item that pass `p` and lack an entry, armed in slot order; then those of the STANDING_BY item
(R96, R191). The hold frame becomes the held-at of the ON_AIR item, or absent (log 45). -/
def Emit.armMissing (env : Env) (r : Replica) (p q : ItemId → Airing → Cue → Bool) (m : Emit) : Emit :=
  let m := match onAirItem r with
    | some (i, a) =>
      ((ownedCues env i).filter fun c => p i.id a c && q i.id a c && (m.sched.find (i.id, c.slot)).isNone).foldl
        (fun (x : Emit) c => x.armTake env i.id a c) m
    | none => m
  let m := match standingByItem r with
    | some i =>
      ((ownedCues env i).filter fun c => p i.id ⟨0, false, 0, none⟩ c && (m.sched.find (i.id, c.slot)).isNone).foldl
        (fun (x : Emit) c => x.armStandby env i.id c) m
    | none => m
  m.modSched fun sc => { sc with holdFrame := match onAirItem r with
    | some (_, a) => a.heldAt
    | none => none }

/-- The replica holds the item DONE with that end frame. -/
def Replica.endedAt (r : Replica) (d : ItemId × Frame) : Bool :=
  r.items.any fun i => decide (i.id = d.1) && (match i.status with
    | .done _ _ _ f _ => decide (f = d.2)
    | .onAir _ | .pending | .standingBy | .skipped => false)

/-- The rearming read completes (R96). The item most recently DONE stays so where LIVE holds it DONE with that end (log 27). -/
def Emit.rearm (env : Env) (r : Replica) (m : Emit) : Emit :=
  let m := m.cancelWhere env .adoption fun e => !keptAtAdoption r e
  ((m.armMissing env r (fun _ _ _ => true) fun _ _ _ => true).modSched fun sc =>
    { sc with rearmWanted := false, lastDone := sc.lastDone.filter r.endedAt }).scanIfUsable env

/-- The report of adoption: the read is wanted, and every shadow record goes (R96, R189); those made between the report and the read
stay (log 49). -/
def Scheduler.adopted (sc : Scheduler) : Scheduler :=
  { sc with rearmWanted := true, shadowList := [], overflow := false }

/-- The frame of a cue's key action as planned, before spacing and trimming (R191). -/
def plannedKey (env : Env) (a : Airing) (c : Cue) : Frame :=
  let f := plannedFire a c
  match c.body with
  | .pips _ n => f - frames ((n - 1) * env.second)
  | .fire _ _ _ | .light _ _ | .marker => f

/-- A frame is at or before the partner's done-through frame; never while that is absent (R190). -/
def doneBy (d : Option Frame) (f : Frame) : Bool :=
  match d with
  | some x => atOrBefore f x
  | none => false

/-- Whether the takeover arms a cue of the ON_AIR item (R191). -/
def Takeover.arms (t : Takeover) (env : Env) (a : Airing) (c : Cue) : Bool :=
  let k := plannedKey env a c
  let kindOk := match c.body with
    | .fire _ _ _ | .marker => !doneBy t.doneThrough k
    | .light _ _ | .pips _ _ => later k t.frame
  kindOk && (!t.overflow || later k t.frame)

/-- The shadow list holds a record of this name. -/
def Scheduler.recorded (sc : Scheduler) (k : EntryKey) : Bool := sc.shadowList.any fun r => decide ((r.item, r.cue.slot) = k)

/-- The takeover read completes (R191): the cues that lack an entry and a shadow record, at the takeover and now, are armed, the
list is emptied, and a scan follows. The overflow mark it reads is the takeover's or one set since, and whether a cue lacks an entry
is judged now: one whose entry stood at the takeover and has left the table since is armed again (log 41). -/
def Emit.takeoverRead (env : Env) (r : Replica) (m : Emit) : Emit :=
  match m.sched.takeover with
  | none => m
  | some t =>
    let t := { t with overflow := t.overflow || m.sched.overflow }
    ((m.armMissing env r (fun id _ c => !t.keys.contains (id, c.slot) && !m.sched.recorded (id, c.slot))
      fun _ a c => t.arms env a c).modSched fun sc =>
      { sc with takeover := none, shadowList := [], overflow := false }).scanIfUsable env

/-- One entry at a takeover (R190). The withheld mark goes with the notice it was read for, and a withheld FIRE not yet started posts
it whatever D is, though its notify may fit the table's fourth row too (log 35). -/
def Emit.takeEntry (env : Env) (m : Emit) (k : EntryKey) : Emit :=
  match m.sched.find k with
  | none => m
  | some e =>
    match e.fire with
    | some f =>
      if !e.withheld then m
      else if e.state = .running then
        let e := { e with withheld := false, joinOffset := some (env.now - f), flags := { e.flags with joined := true } }
        (m.replace env e).post (e.fireNotice f)
      else (m.replace env { e with withheld := false }).post (e.fireNotice f)
    | none => m

/-- One shadow record at a takeover (R190). No FREE follows the END, on an auto-release resource either: R190 names FIRE and END alone
(log 35). -/
def Emit.takeRecord (env : Env) (d : Option Frame) (m : Emit) (r : ShadowRec) : Emit :=
  if doneBy d r.key || r.mirror then m
  else if fdiff env.now r.fire ≤ 8 then
    let m := m.post (.fire r.item r.cue.slot r.cue.resource r.fire r.length { r.flags with late := true, shadow := false }
      none none r.cue.param)
    match r.cue.resource, r.endFrame with
    | some x, some f => m.post (.ended r.item r.cue.slot x f r.cue.param r.flags.cut)
    | _, _ => m
  else m.post (.missed r.item r.cue .tooLate (some r.fire) (some (env.now - r.fire)))

/-- The role has become ACTIVE (R190): SHADOW is cleared, the table and the shadow list are settled at T, and the read of R191
is wanted. `d` is the partner's done-through frame. A takeover before an earlier one's read has completed takes its place, and one
read serves both (log 35). The overflow mark is kept for the read, since R189 clears it with the list here (log 41). -/
def Emit.takeOver (env : Env) (d : Option Frame) (m : Emit) : Emit :=
  let m := m.setArmed env (m.sched.armed.map fun e => { e with flags := { e.flags with shadow := false } })
  let m := m.keys.foldl (·.takeEntry env ·) m
  let list := m.sched.shadowList
  let m := list.foldl (·.takeRecord env d ·) m
  m.modSched fun sc => { sc with
    shadowList := [], overflow := false
    takeover := some ⟨d, env.now, sc.overflow, list.map fun r => (r.item, r.cue.slot)⟩ }

/-- The role has become STANDBY (R192). -/
def Scheduler.standDown (sc : Scheduler) : Scheduler :=
  { sc with
    armed := sc.armed.map fun e => { e with flags := { e.flags with shadow := true } }
    doneThrough := none, shadowList := [], overflow := false }

/-- A partner's PRESENCE with done-through frame D prunes the shadow list (R189). -/
def Scheduler.prune (sc : Scheduler) (d : Option Frame) : Scheduler :=
  match d with
  | some f => sc.keepRecords fun r => later r.key f
  | none => sc

end Sys2Proof.Machine
end

