-- ==== Sys2Proof/Machine/Timing.lean ====
section
/-! DEFINITION. The timing unit: used duration, the wrap timer, the projection record and back-time (R115 to R125). -/

namespace Sys2Proof.Machine

/-- The taken-short flag of a status (R10). -/
def ItemStatus.takenShort : ItemStatus → Bool
  | .onAir a => a.short
  | .done _ short _ _ _ => short
  | .pending | .standingBy | .skipped => false

/-- The used duration of an item (R115). -/
def Item.used (i : Item) : BitVec 24 :=
  match i.short with
  | some d => if i.status.takenShort || i.planShort then d else i.planned
  | none => i.planned

/-- The timer record of an item on air (R116). -/
def Item.timer (i : Item) (a : Airing) : TimerRec :=
  { item := i.id, start := a.start, holdTotal := a.holdTotal, heldAt := a.heldAt, used := i.used, endFrame := none }

/-- The earlier of two frames, where the second is present. -/
def earliest (a : Frame) (b : Option Frame) : Frame :=
  match b with
  | some f => if earlier f a then f else a
  | none => a

/-- Elapsed time (R117): the earliest of now, held-at and end frame, less the start, less the hold total. -/
def TimerRec.elapsed (r : TimerRec) (now : Frame) : Word :=
  earliest (earliest now r.heldAt) r.endFrame - r.start - r.holdTotal

/-- The wrap state of a timed item (R118). -/
def TimerRec.wrapState (r : TimerRec) (lead : Half) (now : Frame) : Light :=
  let e := (r.elapsed now).toInt
  let u : Int := r.used.toNat
  if e < 0 ∨ e < u - lead.toNat then .off else if e < u then .flash else .on

/-- The wrap claim and wrap item worked out anew (R118). -/
def Timing.reclaim (t : Timing) (lead : Half) (now : Frame) : Timing :=
  let r := if t.ending.isSome then t.ending else t.onAir
  match r with
  | some x =>
    let w := x.wrapState lead now
    { t with wrapClaim := w, wrapItem := if w = .off then none else some x.item }
  | none => { t with wrapClaim := .off, wrapItem := none }

def State.reclaim (s : State) : State := s.modTiming (·.reclaim s.config.wrapLead s.now)

/-- The ending record is dropped at its end frame (R118). -/
def Timing.dropEnding (t : Timing) (now : Frame) : Timing :=
  match t.ending with
  | some r => if (match r.endFrame with
      | some f => atOrAfter now f
      | none => false) then { t with ending := none } else t
  | none => t

/-! ## Outcome reports (R116) -/

/-- The record of an item made DONE, as the report gives it: held-at absent (R116). -/
def Item.endingTimer (i : Item) (f : Frame) : TimerRec :=
  match i.status with
  | .done start _ hold _ _ => ⟨i.id, start, hold, none, i.used, some f⟩
  | .onAir _ | .pending | .standingBy | .skipped => ⟨i.id, 0, 0, none, i.used, some f⟩

/-- The on-air record becomes the ending record with end frame `f`, keeping its hold fields; with no record of the item, one
is built from the report (R116), one that ends between an adoption and its projection read among them (log 47). -/
def Timing.endItem (t : Timing) (i : Item) (f : Frame) : Timing :=
  let r := match t.onAir with
    | some r => if r.item = i.id then { r with endFrame := some f } else i.endingTimer f
    | none => i.endingTimer f
  { t with ending := some r, onAir := none }

/-- The item a TAKE made DONE, if any; an earlier ending record is dropped whether or not there is one (R116). -/
def Timing.endDone (t : Timing) (done : Option (Item × Frame)) : Timing :=
  match done with
  | some (i, f) => t.endItem i f
  | none => { t with ending := none }

/-- TAKE (R116). -/
def Timing.onTake (t : Timing) (i : Item) (a : Airing) (done : Option (Item × Frame)) : Timing :=
  { t.endDone done with onAir := some (i.timer a) }

/-- HOLD and RESUME: the on-air record takes the replica's hold fields (R116). -/
def Timing.onHold (t : Timing) (a : Airing) : Timing :=
  { t with onAir := t.onAir.map fun r => { r with heldAt := a.heldAt, holdTotal := a.holdTotal } }

/-- TIMING of an item made DONE (R119). An on-air duration below 0, which R119 rules out and a hold total beyond the actual duration
would give, is taken modulo 2^32 (log 38). -/
def Item.timingNotice (i : Item) (byTake : Bool) : Option TimingNotice :=
  match i.status with
  | .done start _ hold endF actual =>
    let onAir := actual - hold
    some ⟨i.id, start, endF, i.used, actual, hold, onAir, onAir - i.used.setWidth 32, byTake⟩
  | .onAir _ | .pending | .standingBy | .skipped => none

def State.postTiming (s : State) (i : Item) (byTake : Bool) : State :=
  match i.timingNotice byTake with
  | some n => s.post (.timing n)
  | none => s

/-! ## The projection record (R120, R121) -/

/-- Used durations of the items still to come, FLOAT ones left out (R120). -/
def remainingSum (items : List Item) : Nat :=
  items.foldl (fun n i => match i.status with
    | .pending | .standingBy => if i.float then n else n + i.used.toNat
    | .onAir _ | .done .. | .skipped => n) 0

def Replica.projection (r : Replica) : Projection :=
  { onAir := (onAirItem r).map fun x => x.1.timer x.2, remaining := remainingSum r.items, hardOut := r.hardOut }

/-- The later of two frames. -/
def latest (a b : Frame) : Frame := if later b a then b else a

/-- The on-air end (R121). -/
def Projection.onAirEnd (p : Projection) (now : Frame) : Frame :=
  match p.onAir with
  | none => now
  | some r =>
    let held := match r.heldAt with
      | some h => if later now h then now - h else 0
      | none => 0
    latest now (r.start + r.used.setWidth 32 + r.holdTotal + held)

/-- The projected end (R121). -/
def Projection.endFrame (p : Projection) (now : Frame) : Frame := p.onAirEnd now + frames p.remaining

/-- The over/under (R122). -/
def Projection.overUnder (p : Projection) (now : Frame) : Option Word := p.hardOut.map fun h => p.endFrame now - h

def signOf (o : Option Word) : Sign :=
  match o with
  | none => .absent
  | some x => if 0 < x.toInt then .over else .under

/-- The projected end computed: BACKTIME where the sign changes (R122). -/
def State.computeBacktime (s : State) (byFrame : Bool) : State :=
  let p := s.timing.projection
  let o := p.overUnder s.now
  let sign := signOf o
  if sign = s.timing.sign then s
  else (s.modTiming fun t => { t with sign := sign }).post (.backtime sign o (p.endFrame s.now) p.hardOut s.now byFrame)

/-- A projection read is requested, or the read-again mark set while one waits or runs (R120). -/
def State.wantProjection (s : State) : State :=
  if s.store.busy .timing then s.modTiming fun t => { t with readAgain := true } else s.request .projectionRead

/-- The timing unit's work on a frame pulse (R118, R121, R122). -/
def State.timingPulse (s : State) : State :=
  ((s.modTiming (·.dropEnding s.now)).reclaim).computeBacktime true

/-- The report of adoption (R124): both records go, and the read that rebuilds is wanted. -/
def State.timingAdopted (s : State) : State :=
  ((s.modTiming fun t => { t with onAir := none, ending := none, rebuild := true }).reclaim).wantProjection

/-- A projection read completes: the record is replaced whole; after an adoption the on-air record is built (R120, R124), at the
first read that completes, one that waited at the adoption included (log 27). An ending record made since the adoption stays (log 47). -/
def State.projectionDone (s : State) : State :=
  let p := s.store.live.projection
  let s := s.modTiming fun t => { t with
    projection := p, onAir := if t.rebuild then p.onAir else t.onAir, rebuild := false, readAgain := false }
  (s.reclaim).computeBacktime false

/-- The reply to READ_TIMING (R123). -/
def State.timingReply (s : State) : TimingReply :=
  let t := s.timing
  { now := s.now
    onAir := t.onAir.map fun r => ⟨r, r.elapsed s.now⟩
    ending := t.ending.map fun r => ⟨r, r.elapsed s.now⟩
    wrapClaim := t.wrapClaim, wrapItem := t.wrapItem
    projectedEnd := t.projection.endFrame s.now
    remaining := t.projection.remaining, hardOut := t.projection.hardOut
    overUnder := t.projection.overUnder s.now, sign := t.sign
    readPending := s.store.busy .timing || t.readAgain }

end Sys2Proof.Machine
end

