-- ==== Sys2Proof/Machine/Presenter.lean ====
section
/-! DEFINITION. The output unit on the station: held light states, ready presses, and the pips a frame pulse starts or stops
(R99 to R104, R107, R108). -/

namespace Sys2Proof.Machine

/-- Every line's held state takes its claimed state (R100). -/
def State.takeLights (s : State) : State :=
  s.modOut fun o => { o with lights := Vector.ofFn fun line => s.claimed line }

/-- While gallery time is usable the held states follow the claims; else they are held (R100, R102). -/
def State.followLights (s : State) : State := if s.usable then s.takeLights else s

/-- What a command answers when it may have moved a claim: the lines follow. -/
def State.done (s : State) : Outcome := .next s.followLights

/-- Due pips start on both lines while gallery time is usable (R108). -/
def State.pipsStart (s : State) : State :=
  if s.usable then s.modOut fun o => (o.startPips 0 s.now s.clock).startPips 1 s.now s.clock else s

/-- A pip sounding at the frame pulse of a cut's stop frame stops (R108). -/
def State.pipsStop (s : State) : State :=
  if s.usable then s.modOut fun o => o.modPips (Playing.stopAt s.now) else s

/-- The item a ready press on a line names (R104): that of the first LIGHT entry in table order whose claim is FLASH, or the wrap
item. -/
def State.readyItem (s : State) (line : Fin 8) : Option ItemId :=
  if s.config.wrapLine = some line then s.timing.wrapItem
  else (s.sched.armed.find? fun e => decide (e.claim = some (line, .flash))).map (·.item)

/-- Why a READY message may not be queued (R104): where more than one reason holds, the first of STANDBY, MUTED and QUEUE_FULL
(log 31). -/
def State.readyRefusal (s : State) (m : OutMsg) : Option ReadyRefusal :=
  if s.pair.role = .standby then some .standby
  else if s.line.muted then some .muted
  else if s.canOffer m then none else some .queueFull

/-- A press on one input (R103, R104). -/
def State.press (s : State) (input : Fin 4) : State :=
  match s.config.readyMap[input] with
  | none => s
  | some line =>
    if s.out.lights[line] ≠ .flash then s else
    let item := s.readyItem line
    let m := OutMsg.ready line item
    let why := s.readyRefusal m
    (if why.isNone then s.enqueue m else s).post (.ready input line item s.now why)

/-- The sample of a frame pulse (R103): an input released at the last sample and pressed now has been pressed. Several pressed at
once are acted on in ascending number (log 9). -/
def State.sample (s : State) (pressed : Vector Bool 4) : State :=
  let hit (i : Fin 4) : Bool := pressed[i] && (match s.out.samples with
    | some last => !last[i]
    | none => false)
  let s' := s.modOut fun o => { o with samples := some pressed }
  ([0, 1, 2, 3] : List (Fin 4)).foldl (fun t i => if hit i then t.press i else t) s'

/-- The output unit's work on a frame pulse. -/
def State.outputPulse (s : State) (pressed : Vector Bool 4) : State := (s.pipsStop.pipsStart).sample pressed

end Sys2Proof.Machine
end

