-- ==== Sys2Proof/Machine/Pair.lean ====
section
/-! DEFINITION. The pair monitor (R178 to R186, R192) and the reports of usability (R68). -/

namespace Sys2Proof.Machine

/-- The scheduler's next store read is requested when none of its own waits or runs (R17, R96, R191), a rearming read before a
takeover's (log 9). -/
def State.wantReads (s : State) : State :=
  if s.store.busy .scheduler then s
  else if s.sched.rearmWanted then s.request .rearmRead
  else if s.sched.takeover.isSome then s.request .takeoverRead
  else s

def State.isPaired (s : State) : Bool := decide (s.config.pairMode ≠ .none)

/-- The partner's done-through frame as last heard (R187). -/
def State.partnerDone (s : State) : Option Frame :=
  match s.partnerContents with
  | some c => c.doneThrough
  | none => none

def State.postRole (s : State) (new : Role) (cause : RoleCause) : State :=
  s.post (.role new s.pair.role cause s.now s.config.partner s.partnerPresent
    (if new = .active then s.partnerDone else none))

/-- The station becomes ACTIVE (R181, R185, R186): ROLE, then the settlement of R190, then the read of R191. -/
def State.becomeActive (s : State) (cause : RoleCause) : State :=
  let d := s.partnerDone
  let s := (s.postRole .active cause).modPair fun p => { p with role := .active, blocked := false }
  (s.emit fun env m => m.takeOver env d).wantReads

/-- The station becomes STANDBY (R183, R186, R192); its yield ends (R184), its count at 0 (log 40). -/
def State.becomeStandby (s : State) (cause : RoleCause) : State :=
  ((s.postRole .standby cause).modPair fun p => { p with role := .standby, yield := .none, yieldCount := 0 }).modSched
    Scheduler.standDown

/-- A STANDBY member is blocked; it says so once (R182). -/
def State.block (s : State) (cause : RoleCause) : State :=
  if s.pair.blocked then s else
  (s.modPair fun p => { p with blocked := true }).post
    (.takeoverBlocked cause s.partnerPresent (s.partnerContents.map (·.role)) (decide (s.sync.step ≠ .inStep)) (!s.usable)
      s.line.muted)

/-- The takeover test (R181). -/
def State.takeoverTest (s : State) : State :=
  if !s.isRun || !s.isPaired || decide (s.pair.role ≠ .standby) || decide (s.sync.step = .joining) then s else
  match s.takeoverCause with
  | some c => if s.fit then s.becomeActive c else s.block c
  | none => s.modPair fun p => { p with blocked := false }

/-- A condition of fitness has changed (R179). -/
def State.fitnessChanged (s : State) : State := s.takeoverTest

/-- Usability has changed (R68): the scheduler, the output unit and the pair monitor are told. -/
def State.usabilityChanged (s : State) : State :=
  if s.usable then
    let s := s.modOut fun o => o.modPips (Playing.dropPassed s.now)
    let s := s.emit fun env m => m.scanIfUsable env
    s.pipsStart.followLights.fitnessChanged
  else s.takeLights.fitnessChanged

/-- Two ACTIVE members (R183); `c` is the PRESENCE just taken. -/
def State.resolveDoubled (s : State) (c : Presence) : State :=
  if s.pair.yield ≠ .none then s.becomeStandby .yielded
  else if !s.fit then s.becomeStandby .doubledUnfit
  else if !c.judgedFit then s
  else match s.config.partner with
    | some p => if s.straps.number < p then s else s.becomeStandby .doubledNumber
    | none => s

/-- The roster reports a PRESENCE of the partner (R180, R189): a STANDBY prunes its shadow list before the takeover test (log 9). -/
def State.partnerHeard (s : State) (c : Presence) : State :=
  let s := s.modPair fun p => { p with fitness := (p.fitness ++ [c.judgedFit]).drop (p.fitness.length - 1) }
  let s := if s.pair.role = .standby then s.modSched (·.prune c.doneThrough) else s
  match s.pair.role with
  | .standby => s.takeoverTest
  | .active => if c.role = .standby then s else s.resolveDoubled c
  | .solo => s

/-- The roster reports the partner ABSENT (R180). -/
def State.partnerLost (s : State) : State :=
  (s.modPair fun p => { p with fitness := [] }).takeoverTest

/-- A YIELD from station `n` (R178, R185). -/
def State.yieldHeard (s : State) (n : StationNo) : State :=
  if !s.isPaired || decide (s.config.partner ≠ some n) || decide (s.pair.role ≠ .standby) then s
  else if s.fit then s.becomeActive .yieldReceived else s.block .yieldReceived

/-- The YIELD message completes (R184). One left over from before a stand-down counts as the YIELD in course, if there is one
(log 35). -/
def State.yieldSent (s : State) : State :=
  if s.pair.role = .active ∧ s.pair.yield = .queued then
    s.modPair fun p => { p with yield := .pending, yieldCount := 0 }
  else s

/-- The YIELD message is given up (R184), one left over included (log 35); the count is 0 then (log 40). -/
def State.yieldLost (s : State) : State := s.modPair fun p => { p with yield := .none, yieldCount := 0 }

/-- Frame pulses a yield waits (R184). -/
def yieldLimit : Nat := 30

/-- The yield count has run out (R184) and is 0 then (log 40). -/
def State.yieldExpire (s : State) : State :=
  if s.pair.yield = .pending ∧ yieldLimit ≤ s.pair.yieldCount then
    (s.modPair fun p => { p with yield := .none, yieldCount := 0 }).post
      (.yieldFailed s.config.partner s.partnerPresent (s.partnerContents.map (·.role)))
  else s

/-- The pair monitor's work on a frame pulse (R184). -/
def State.pairPulse (s : State) : State :=
  (if s.pair.yield = .pending then s.modPair fun p => { p with yieldCount := p.yieldCount + 1 } else s).yieldExpire

/-- The station has become muted (R186). A yield ends, its count at 0 (log 40). -/
def State.pairMuted (s : State) : State :=
  if !s.isPaired then s else
  let s := s.modPair fun p => { p with yield := .none, yieldCount := 0 }
  if s.pair.role = .active then s.becomeStandby .muted else s.takeoverTest

end Sys2Proof.Machine
end

