-- ==== Sys2Proof/Machine/Sync.lean ====
section
/-! DEFINITION. The sync engine (R151, R159 to R177) with the apply queue it turns on and off (R22, R23, R25 to R28). -/

namespace Sys2Proof.Machine

/-! ## The apply queue -/

def QueueEntry.isOrdered : QueueEntry → Bool
  | .ordered _ _ => true
  | .marker _ => false

/-- The entry once the stream going out is abandoned (R170): a marker is void. -/
def QueueEntry.voided : QueueEntry → QueueEntry
  | .ordered n m => .ordered n m
  | .marker _ => .marker true

/-- An apply holds the store. -/
def State.applying (s : State) : Bool := decide (s.store.holder = some .apply)

/-- The head leaves the apply queue, and the transmitter arbiter looks again (R131). -/
def State.popQueue (s : State) : State := (s.modApply fun a => { a with queue := a.queue.tail }).arbitrate

/-- Ordered message entries are discarded, and a store request for one not yet granted is removed; an apply in progress keeps its
entry (R26, R27). -/
def State.discardOrdered (s : State) : State :=
  let keep := s.applying
  let s := s.modApply fun a => { a with
    queue := match keep, a.queue with
      | true, h :: t => h :: t.filter (!·.isOrdered)
      | _, q => q.filter (!·.isOrdered) }
  (if s.store.waitApply = some .apply then s.modStore (·.setWaiting .apply none) else s).arbitrate

/-! ## The responder side -/

/-- Frame pulses to wait for a rank (R165). -/
def responseWait (rank : Nat) : Nat := 2 + 3 * rank

/-- A response round starts, where this station passes the test (R165). -/
def State.startRound (s : State) : State :=
  if s.sync.responder = .idle ∧ s.sync.step = .inStep ∧ s.line.muted = false ∧ s.passesTest = true then
    s.modSync fun y => { y with responder := .waiting, wait := some (responseWait s.rank) }
  else s

/-- Some asker is not shown PRESENT and IN_STEP (R169). -/
def State.askerBehind (s : State) : Bool := s.sync.askers.any fun n => !s.peerInStep n

/-- The stream-end rule (R169). -/
def State.streamEnd (s : State) : State :=
  let again := s.sync.pendingAsk && s.askerBehind
  let s := s.modSync fun y => { y with responder := .idle, wait := none, nextPart := none, pendingAsk := false, askers := [] }
  if again then s.startRound else s

/-- SHADOW takes the empty replica, out of use. -/
def Store.emptyShadow (st : Store) : Store := { st with shadow := .empty, use := .empty }

/-- The head of the apply queue is looked at (R25, R28, R19): an ordered message requests the store, a freeze marker whose stream
is held open the copy, and any other leaves without one. `fuel` bounds the markers passed over: the queue's places. -/
def State.kickFor (fuel : Nat) (s : State) : State :=
  match fuel with
  | 0 => s
  | n + 1 =>
    if s.store.busy .apply then s else
    match s.apply.queue with
    | [] => s
    | .ordered _ _ :: _ =>
      if s.sync.step = .inStep ∧ s.apply.holding = false then s.request .apply else s
    | .marker void :: _ =>
      if void = false ∧ s.sync.responder = .freezing then
        if s.store.use = .empty then s.request .freezeCopy
        else State.kickFor n s.popQueue.streamEnd
      else State.kickFor n s.popQueue

/-- Places of the apply queue (R22). -/
def applyPlaces : Nat := 8

def State.kick (s : State) : State := s.kickFor (applyPlaces + 1)

/-- A freeze copy that waits is removed, and one granted completes with its outcome dropped (R170). -/
def Store.abandonFreeze (st : Store) : Store :=
  { st with
    waitApply := st.waitApply.filter fun op => decide (op ≠ .freezeCopy)
    dropped := st.dropped || decide (st.holder = some .freezeCopy) }

/-- The responder side is abandoned (R170). The marker of a stream FREEZING stays where it stands, void. -/
def State.abandonResponder (s : State) : State :=
  match s.sync.responder with
  | .idle => s
  | .waiting => s.streamEnd
  | .opening => (s.withdraw OutMsg.isPart).streamEnd
  | .freezing =>
    let s := s.modApply fun a => { a with queue := a.queue.map QueueEntry.voided }
    (s.streamEnd.modStore Store.abandonFreeze).kick
  | .sending =>
    let s := s.withdraw OutMsg.isPart
    let reading := match s.store.holder with
      | some (.partRead _) => true
      | _ => false
    let s := s.modStore (·.abandon .sync)
    (if reading then s else s.modStore Store.emptyShadow).streamEnd

/-! ## Changes of step -/

/-- The step state changes: STEP is posted (R177). -/
def State.setStep (s : State) (new : StepState) (cause : StepCause) : State :=
  (s.modSync fun y => { y with step := new }).post (.step new s.sync.step cause s.store.summary)

/-- The catch-up fields at their reset values (R159). -/
def Sync.clearCatchUp (y : Sync) : Sync :=
  { y with phase := .awaiting, source := none, expected := 0, count := none, written := 0, buffer := [], gap := 0 }

/-- An IN_STEP station goes OUT_OF_STEP (R26, R137, R160, R170). -/
def State.leaveInStep (s : State) (cause : StepCause) : State :=
  if s.sync.step ≠ .inStep then s else
  let s := s.setStep .outOfStep cause
  let s := s.modSync fun y => { y with askWait := 0, ask := .none }
  let s := s.discardOrdered
  let out := s.line.withdrawn OutMsg.isOrdered
  let s := (s.withdraw OutMsg.isOrdered).sendFailedAll out .notInStep
  let s := s.abandonResponder
  (s.modSync fun y => { y with pendingAsk := false, askers := [] }).kick.fitnessChanged

/-- A station becomes IN_STEP and takes what waits in its queue. -/
def State.enterInStep (s : State) (cause : StepCause) : State :=
  ((s.setStep .inStep cause).modSync Sync.clearCatchUp).kick.fitnessChanged

/-- A catch-up is abandoned (R175). -/
def State.abandonCatchUp (s : State) (reason : AbandonReason) : State :=
  let y := s.sync
  let s := s.setStep .outOfStep (.abandoned reason y.source y.written y.count)
  let s := s.modApply fun a => { a with holding := false }
  let s := s.discardOrdered
  let s := s.modStore fun st => (st.abandon .sync).emptyShadow
  (s.modSync fun y => { y.clearCatchUp with askWait := 0 }).kick.fitnessChanged

/-- An ordered message is admitted to the queue or discarded (R23). -/
def State.takeOrdered (s : State) (source : StationNo) (m : Ordered) : State :=
  let free := decide (0 < s.apply.freePlaces)
  let join := fun (t : State) => (t.modApply fun a => { a with queue := a.queue ++ [.ordered source m] }).kick
  match s.sync.step with
  | .joining | .outOfStep => s
  | .inStep => if free then join s else s.leaveInStep .queueFull
  | .catchingUp =>
    if !s.apply.holding then s
    else if free then join s
    else s.abandonCatchUp .heldOverflow

/-- A possible loss (R162). -/
def State.possibleLoss (s : State) : State :=
  match s.sync.step with
  | .joining | .outOfStep => s
  | .inStep => s.leaveInStep .possibleLoss
  | .catchingUp => if s.sync.phase = .awaiting then s else s.abandonCatchUp .possibleLoss

/-- A part of a named source was lost (R162). -/
def State.partLost (s : State) (n : StationNo) : State :=
  let y := s.sync
  let short := match y.count with
    | some c => decide (y.written < c + 1)
    | none => true
  if y.step = .catchingUp ∧ y.phase ≠ .awaiting ∧ y.source = some n ∧ short = true then s.abandonCatchUp .partLost else s

/-! ## Joining and comparing (R151, R161) -/

/-- The roster reports a PRESENCE. -/
def State.syncHeard (s : State) (c : Presence) : State :=
  match s.sync.step with
  | .joining =>
    if c.step ≠ .inStep then s else
    match s.reference with
    | some (n, r) =>
      if r = s.store.summary then s.enterInStep (.joinMatch n r)
      else ((s.setStep .outOfStep (.joinMismatch n r)).modSync fun y => { y with askWait := 0, ask := .none }).fitnessChanged
    | none => s
  | .inStep =>
    if !s.apply.queue.isEmpty then s else
    match s.reference with
    | some (n, r) => if n ≠ s.straps.number ∧ r ≠ s.store.summary then s.leaveInStep (.mismatch n r) else s
    | none => s
  | .outOfStep | .catchingUp => s

/-- Frame pulses of the joining window (R151). -/
def joinLimit : Nat := 30

/-- The station founds the rundown, its joining count having run out (R151). -/
def State.found (s : State) : State :=
  if s.sync.step = .joining ∧ joinLimit ≤ s.sync.joinCount then s.enterInStep .founded else s

/-! ## Asking (R163, R164) -/

def State.askLimit (s : State) : Nat := 2 + 3 * (s.straps.number.val % 8)

/-- An ASK is offered from OUT_OF_STEP; taken, the station is CATCHING_UP (R163). -/
def State.askFirst (s : State) : State :=
  if s.sync.step = .outOfStep ∧ s.askLimit ≤ s.sync.askWait ∧ s.canOffer .ask = true then
    let s := s.enqueue .ask
    ((s.setStep .catchingUp .asked).modSync fun y => { y.clearCatchUp with ask := .queued, askRetry := 0 }).fitnessChanged
  else s

/-- A further ASK is offered (R164). -/
def State.askAgain (s : State) : State :=
  if s.canOffer .ask then (s.enqueue .ask).modSync fun y => { y with ask := .queued } else s

/-- The station awaits a part 0: it is CATCHING_UP and has taken none (R164). -/
def Sync.awaiting (y : Sync) : Bool := decide (y.step = .catchingUp ∧ y.phase = .awaiting)

def State.awaitingOut (s : State) : Bool := s.sync.awaiting && decide (s.sync.ask = .out)

/-- Frame pulses with no part 0 before a station asks again (R164). -/
def retryLimit : Nat := 20

/-- The retry count has run out (R164): ask again, or refound. -/
def State.askRetryExpire (s : State) : State :=
  if s.awaitingOut && decide (retryLimit ≤ s.sync.askRetry) then
    let peerIn := stations.any s.peerInStep
    let own := match s.wouldBeChosen with
      | some (n, _) => decide (n = s.straps.number)
      | none => false
    if !peerIn && own then
      (s.modSync fun y => { y with ask := .none, askRetry := 0 }).enterInStep .refounded
    else s.askAgain
  else s

/-- The ASK completes (R164): the retry count starts at 0, unless a part 0 has been taken. One left queued from an earlier catch-up
that completes while the station is AWAITING again counts as the present one (log 32). -/
def State.askSent (s : State) : State :=
  s.modSync fun y => { y with ask := .out, askRetry := if y.awaiting then 0 else y.askRetry }

/-- The ASK is given up (R164). One left from an earlier catch-up ends the present one while the station is AWAITING (log 32). -/
def State.askLost (s : State) : State :=
  let s' := s.modSync fun y => { y with ask := .none }
  if s.sync.awaiting then
    ((s'.setStep .outOfStep .askFailed).modSync fun y => { y.clearCatchUp with askWait := 0 }).fitnessChanged
  else s'

/-! ## Responding (R165 to R169) -/

/-- An ASK from another station (R165). -/
def State.askHeard (s : State) (n : StationNo) : State :=
  if s.sync.step ≠ .inStep then s else
  match s.sync.responder with
  | .idle => s.startRound
  | .waiting | .opening => s
  | .freezing | .sending =>
    s.modSync fun y => { y with
      pendingAsk := true, askers := if y.askers.contains n then y.askers else y.askers ++ [n] }

/-- The response wait has run out: the opening is offered (R166); refused, the round ends (log 20). From the offer on no wait is
held (log 32). -/
def State.responseExpire (s : State) : State :=
  if s.sync.responder = .waiting ∧ s.sync.wait = some 0 then
    if s.canOffer (.part 0 []) then
      (s.enqueue (.part 0 [])).modSync fun y => { y with responder := .opening, wait := none }
    else s.streamEnd
  else s

/-- This station's opening completes, and its freeze marker takes the reserved place (R28, R167): void where the round was abandoned
while the opening was transmitting (R170). -/
def State.openingSent (s : State) (withdrawn : Bool) : State :=
  let opens := !withdrawn && decide (s.sync.responder = .opening)
  let s := s.modApply fun a => { a with queue := a.queue ++ [.marker (!opens)] }
  (if opens then s.modSync fun y => { y with responder := .freezing } else s).kick

/-- The read of the next part is requested (R168). -/
def State.readPart (s : State) : State :=
  match s.sync.nextPart with
  | some k => s.request (.partRead k)
  | none => s

/-- A PART of the stream completes: the next is read, or the stream ends (R168). -/
def State.partSent (s : State) (k : Nat) : State :=
  if s.sync.responder = .sending ∧ s.sync.nextPart = some k then
    if k = s.store.shadow.items.length + 1 then (s.modStore Store.emptyShadow).streamEnd
    else (s.modSync fun y => { y with nextPart := some (k + 1) }).readPart
  else s

/-- A PART is given up (R135, R166, R168). -/
def State.partGivenUp (s : State) (k : Nat) : State :=
  if k = 0 then (if s.sync.responder = .opening then s.streamEnd else s)
  else if s.sync.responder = .sending then s.abandonResponder else s

/-! ## Receiving a snapshot (R171 to R173) -/

/-- The oldest part of the buffer asks for its store operation (R172). -/
def State.wantWrite (s : State) : State :=
  if s.sync.phase = .receiving ∧ s.store.busy .sync = false then
    match s.sync.buffer with
    | (k, c) :: _ => s.request (.partWrite k c)
    | [] => s
  else s

/-- An opening is taken as a new stream, where the state allows it (R171). -/
def State.takeOpening (s : State) (n : StationNo) : State :=
  let may := s.sync.step = .outOfStep ∨ (s.sync.step = .catchingUp ∧ s.sync.phase = .awaiting)
  if may ∧ s.store.use = .empty then
    let fresh := s.sync.step = .outOfStep
    let s := if fresh then s.setStep .catchingUp (.stream n) else s
    let s := s.modSync fun y => { y.clearCatchUp with
      phase := .receiving, source := some n, expected := 1, askWait := 0 }
    let s := s.modStore fun st => { st with shadow := .empty, use := .assembling }
    let s := s.modApply fun a => { a with holding := true }
    if fresh then s.fitnessChanged else s
  else s

/-- A part 0 from another station cancels a response round (R166). -/
def State.cancelRound (s : State) : State :=
  match s.sync.responder with
  | .waiting => s.modSync fun y => { y with responder := .idle, wait := none }
  | .opening =>
    if s.line.transmitting then s
    else (s.withdraw OutMsg.isPart).modSync fun y => { y with responder := .idle }
  | .idle | .freezing | .sending => s

/-- A part 0 is handed over (R166, R171). One of the stream source in RECEIVING abandons the catch-up by R171, also once the expected part
has passed the last one, where R172 would ignore it (log 39). -/
def State.openingHeard (s : State) (n : StationNo) : State :=
  match s.sync.step with
  | .joining => s
  | .inStep => s.cancelRound
  | .outOfStep => s.takeOpening n
  | .catchingUp =>
    match s.sync.phase with
    | .awaiting => s.takeOpening n
    | .receiving => if s.sync.source = some n then (s.abandonCatchUp .order).takeOpening n else s
    | .checking | .swapping => s

/-- The expected part has passed the last one. -/
def Sync.passedLast (y : Sync) : Bool :=
  match y.count with
  | some c => decide (c + 1 < y.expected)
  | none => false

/-- A PART numbered 1 or more is handed over (R172). The item count is known once part 1 is taken (log 19). After part 97 the
expected part is 98, one past the range that R159 gives it (log 19). A part out of order that finds the buffer full abandons with
reason ORDER, and a part heard once the expected part has passed the last one is ignored by R172, where R16 would abandon (log 39). -/
def State.partHeard (s : State) (n : StationNo) (k : Nat) (content : List Byte) : State :=
  let y := s.sync
  if y.step ≠ .catchingUp ∨ y.phase ≠ .receiving ∨ y.source ≠ some n ∨ y.passedLast then s
  else if k ≠ y.expected then s.abandonCatchUp .order
  else if 2 ≤ y.buffer.length then s.abandonCatchUp .overrun
  else
    (s.modSync fun y => { y with
      buffer := y.buffer ++ [(k, content)], expected := y.expected + 1, gap := 0
      count := if k = 1 then (readPart1 content).map (·.2) else y.count }).wantWrite

/-- Frame pulses without a part that abandon a stream (R173). -/
def gapLimit : Nat := 11

/-- The gap count has run out (R173). -/
def State.gapExpire (s : State) : State :=
  if s.sync.step = .catchingUp ∧ s.sync.phase = .receiving ∧ gapLimit ≤ s.sync.gap then s.abandonCatchUp .gapTimeout else s

/-! ## The frame pulse -/

/-- The sync engine's counts on a frame pulse, and what each limit brings (R151, R163, R164, R166, R173). -/
def State.syncPulse (s : State) : State :=
  match s.sync.step with
  | .joining => (s.modSync fun y => { y with joinCount := y.joinCount + 1 }).found
  | .inStep =>
    (s.modSync fun y => { y with wait := if y.responder = .waiting then y.wait.map (· - 1) else y.wait }).responseExpire
  | .outOfStep =>
    (s.modSync fun y => { y with askWait := if y.askWait < s.askLimit then y.askWait + 1 else y.askWait }).askFirst
  | .catchingUp =>
    match s.sync.phase with
    | .awaiting =>
      if s.sync.ask ≠ .out then s
      else if s.sync.askRetry < retryLimit then
        (s.modSync fun y => { y with askRetry := y.askRetry + 1 }).askRetryExpire
      else s.askAgain
    | .receiving =>
      (s.modSync fun y => { y with gap := if y.passedLast then y.gap else y.gap + 1 }).gapExpire
    | .checking | .swapping => s

/-! ## Muting -/

/-- Muting ends the responder side in any state (R170). -/
def State.syncMuted (s : State) : State := s.abandonResponder

end Sys2Proof.Machine
end

