-- ==== Sys2Proof/Machine/Timebase.lean ====
section
/-! DEFINITION. The timebase unit (R51 to R70), the roster's counts (R153 to R156), the PRESENCE due (R142) and the frame pulse
over all blocks. -/

namespace Sys2Proof.Machine

/-! ## LOCK notices (R70) -/

def State.postLock (s : State) (cause : LockCause) (also : Option LockCause := none) (correction : Word := 0)
    (sender : Option StationNo := none) : State :=
  s.post (.lock ⟨cause, also, s.tb.lock, s.tb.source, s.tb.refLost, s.tb.followed, s.tb.counter, correction,
    s.tb.slipCount, s.tb.lastSlip, sender⟩)

/-- What follows a change of the counter (R63, R84, R108, R118): a scan, due pips and the wrap claim. -/
def State.afterCorrection (s : State) : State :=
  (s.emit fun env m => m.scanIfUsable env).pipsStart.reclaim

/-- The lock state was `before`; a change of usability is reported (R68). -/
def State.reportUsability (s : State) (before : Bool) : State := if s.usable = before then s else s.usabilityChanged

/-! ## Marks (R57 to R61, R66) -/

/-- Whether a mark from station `n` is taken (R57). -/
def State.takesMark (s : State) (n : StationNo) : Bool :=
  if s.tb.source then decide (n < s.straps.number)
  else match s.tb.followed with
    | some f => decide (n ≤ f)
    | none => true

/-- The mark difference is one frame (R60). -/
def isSlip (d : Word) : Bool := decide (d = 1 ∨ d = -1)

/-- The counter corrected, and on a slip the slip record (R60). -/
def Timebase.correct (t : Timebase) (d : Word) (slip : Bool) : Timebase :=
  let c := t.counter + d
  if slip then { t with counter := c, slipCount := bump t.slipCount, lastSlip := some (d, c) } else { t with counter := c }

/-- A taken mark with difference `d` in each lock state: the new timebase and the notice's cause, if one is posted (R58 to R61). -/
def Timebase.mark (t : Timebase) (d : Word) : Timebase × Option LockCause :=
  match t.lock with
  | .free => ({ t.correct d false with lock := .acquiring, agree := 0 }, some .markLoad)
  | .acquiring =>
    if d = 0 then
      if t.agree + 1 < 2 then ({ t with agree := t.agree + 1 }, none)
      else ({ t with lock := .locked, agree := 0 }, some .acquired)
    else ({ t.correct d false with agree := 0 }, some .reacquire)
  | .locked =>
    if d = 0 then (t, none)
    else if isSlip d then (t.correct d true, some .slip)
    else ({ t.correct d false with lock := .acquiring, agree := 0 }, some .reacquire)
  | .holdover =>
    if d = 0 then ({ t with lock := .locked, holdover := 0 }, some .relocked)
    else if isSlip d then ({ t.correct d true with lock := .locked, holdover := 0 }, some .relocked)
    else ({ t.correct d false with lock := .acquiring, agree := 0, holdover := 0 }, some .reacquire)

/-- A source yields: its flag clears and its waiting MARK is withdrawn (R66). -/
def State.dropSource (s : State) : State := (s.modTb fun t => { t with source := false }).withdraw OutMsg.isMark

/-- A MARK from station `n` carrying `frame`, handed over (R56, R57, R66). Its LOCK notice stands before those that the report of
usability brings (log 9). -/
def State.markHeard (s : State) (n : StationNo) (frame : Frame) : State :=
  match s.tb.capture with
  | none => s
  | some cap =>
    if !s.takesMark n then s else
    let d := frame - cap
    let before := s.usable
    let yields := s.tb.source
    let s := if yields then s.dropSource else s
    let r := ({ s.tb with followed := some n, silence := 0 } : Timebase).mark d
    let s := s.modTb fun _ => r.1
    let s := match (if yields then some LockCause.yielded else r.2) with
      | some cause => s.postLock cause none d (some n)
      | none => s
    let s := s.reportUsability before
    if d = 0 then s else s.afterCorrection

/-! ## The frame pulse (R62, R64, R65) -/

/-- Frame pulses without a mark that end LOCKED or ACQUIRING, and that let a station elect itself (R62, R64). -/
def silenceLimit : Nat := 48

def holdoverLimit : Nat := 1024

/-- SILENCE (R62). -/
def State.silenceExpire (s : State) : State :=
  if s.tb.lock = .locked ∧ s.tb.source = false ∧ silenceLimit ≤ s.tb.silence then
    (s.modTb fun t => { t with lock := .holdover, holdover := 0, followed := none }).postLock .silence
  else s

/-- ACQUIRE_TIMEOUT (R62). -/
def State.acquireExpire (s : State) : State :=
  if s.tb.lock = .acquiring ∧ silenceLimit ≤ s.tb.silence then
    (s.modTb fun t => { t with lock := .free, agree := 0, followed := none }).postLock .acquireTimeout
  else s

/-- HOLDOVER_EXPIRED (R62). -/
def State.holdoverExpire (s : State) : State :=
  if s.tb.lock = .holdover ∧ holdoverLimit ≤ s.tb.holdover then
    ((s.modTb fun t => { t with lock := .free, holdover := 0 }).postLock .holdoverExpired).usabilityChanged
  else s

/-- The election test (R64). -/
def State.elects (s : State) : Bool :=
  !s.tb.source && s.eligible && decide (silenceLimit ≤ s.tb.silence)
    && !(stations.any fun n => decide (n < s.straps.number) && s.peerEligible n)

def State.elect (s : State) : State :=
  if s.elects then
    let before := s.usable
    let s := s.modTb fun t => { t with source := true, lock := .locked, agree := 0, holdover := 0, followed := none }
    (s.postLock .elected).reportUsability before
  else s

/-- A MARK of this station waits unsent in the URGENT queue (R65; log 21). -/
def State.markWaits (s : State) : Bool :=
  (if s.line.sendsFrom .urgent then s.line.urgent.tail else s.line.urgent).any fun m => m.msg.isMark

/-- The MARK due test (R65). -/
def State.markDue (s : State) : State :=
  if s.tb.source ∧ s.tb.counter.toNat % 16 = 0 then
    if s.markWaits then s
    else if s.canOffer (.mark s.now) then s.enqueue (.mark s.now)
    else s.modLine fun l => { l with record := { l.record with markSkipped := bump l.record.markSkipped } }
  else s

/-- The timers of the lock state (R62, second step). -/
def State.lockTimers (s : State) : State :=
  match s.tb.lock with
  | .locked => s.silenceExpire
  | .acquiring => s.acquireExpire
  | .holdover => (s.modTb fun t => { t with holdover := t.holdover + 1 }).holdoverExpire
  | .free => s

/-- The timebase unit's four steps on a frame pulse (R62). -/
def State.timebasePulse (s : State) : State :=
  let s := if s.tb.source then s else s.modTb fun t => { t with silence := bump t.silence }
  s.lockTimers.elect.markDue

/-- The source ceases to be eligible on muting (R67). -/
def State.timebaseMuted (s : State) : State :=
  if s.tb.source then
    (s.dropSource.modTb fun t => { t with silence := 0, followed := none }).postLock .ineligible
  else s

/-! ## The roster (R153 to R156) -/

/-- Frame pulses of silence after which a peer is ABSENT (R155). -/
def absentLimit : Nat := 30

def Roster.setPeer (r : Roster) (n : StationNo) (e : PeerEntry) : Roster := { r with peers := r.peers.set n e }

def State.postPeer (s : State) (n : StationNo) : State :=
  s.post (.peer n (s.peer n).present s.now (s.peer n).contents)

/-- An entry whose silence count has run out falls ABSENT (R155). -/
def State.peerExpire (s : State) (n : StationNo) : State :=
  let e := s.peer n
  if e.present = true ∧ absentLimit ≤ e.silence then
    let s := (s.modRoster (·.setPeer n { e with present := false })).postPeer n
    if s.config.partner = some n then s.partnerLost else s
  else s

/-- One entry on a frame pulse (R155). -/
def State.peerPulse (s : State) (n : StationNo) : State :=
  let e := s.peer n
  if e.present then (s.modRoster (·.setPeer n { e with silence := e.silence + 1 })).peerExpire n else s

/-- Every entry on a frame pulse (R155), in ascending station number, each with its PEER notice and its report to the pair
monitor before the next is counted (log 9). -/
def State.rosterPulse (s : State) : State := stations.foldl State.peerPulse s

/-- An accepted PRESENCE of station `n` (R154). Step 3 names the sync engine and the pair monitor without an order: of the partner's
PRESENCE the sync engine is told first (log 9). -/
def State.presenceHeard (s : State) (n : StationNo) (payload : List Byte) : State :=
  match readPresence payload with
  | none => s
  | some c =>
    let was := (s.peer n).present
    let s := s.modRoster (·.setPeer n ⟨true, some c, some s.now, 0⟩)
    let s := if was then s else s.postPeer n
    let s := s.syncHeard c
    if s.config.partner = some n then s.partnerHeard c else s

/-! ## PRESENCE due (R142) -/

/-- The first PRESENCE of the list that is not transmitting takes new contents, its place and attempt count kept (R142). Two can wait
where one collides after another has joined behind it; R142 does not say which is meant, and the other stays as it is (log 21). -/
def refreshPresence (c : Presence) : List TxMsg → List TxMsg
  | [] => []
  | m :: r => if m.msg.isPresence then { m with msg := .presence c } :: r else m :: refreshPresence c r

/-- The line controller's work on a frame pulse (R142). -/
def State.linePulse (s : State) : State :=
  if s.line.muted = true ∨ s.now.toNat % 10 ≠ s.straps.number.val % 10 then s else
  let c := s.presence
  let sending := s.line.sendsFrom .routine
  let rest := if sending then s.line.routine.tail else s.line.routine
  if rest.any fun m => m.msg.isPresence then
    s.modLine fun l => { l with
      routine := (if sending then l.routine.take 1 else []) ++ refreshPresence c rest }
  else if s.canOffer (.presence c) then s.enqueue (.presence c)
  else s.modLine fun l => { l with record := { l.record with presenceSkipped := bump l.record.presenceSkipped } }

/-! ## A frame pulse over all blocks -/

def allBlocks : List Block := [.timebase, .roster, .sync, .pair, .scheduler, .output, .timing, .line]

/-- Each block of the list once, where it first stands. -/
def firsts : List Block → List Block
  | [] => []
  | b :: r => b :: (firsts r).filter fun c => decide (c ≠ b)

/-- The order of the blocks: as the pulse gives it, each once, the ones it leaves out after them (log 2). -/
def blockOrder (order : List Block) : List Block := firsts order ++ allBlocks.filter fun b => !order.contains b

def State.blockPulse (pressed : Vector Bool 4) (s : State) (b : Block) : State :=
  (match b with
   | .timebase => s.timebasePulse
   | .roster => s.rosterPulse
   | .sync => s.syncPulse
   | .pair => s.pairPulse
   | .scheduler => s.emit fun env m => m.pulse env
   | .output => s.outputPulse pressed
   | .timing => s.timingPulse
   | .line => s.linePulse).followLights

/-- The counter is raised (R51), at this moment. -/
def State.raise (s : State) : State :=
  s.modTb fun t => { t with counter := t.counter + 1, lastPulse := some s.clock }

/-- Every block acts on the raised counter (R51, R52). -/
def State.blocks (s : State) (p : Pulse) : State := (blockOrder p.order).foldl (State.blockPulse p.pressed) s

/-- Less than half a nominal period has passed since the last frame pulse (R52, R54). -/
def State.early (s : State) : Bool :=
  match s.tb.lastPulse with
  | some t => decide (2 * (s.clock - t) < nominalPeriod s.config.rate)
  | none => false

/-- The reference watch starts anew (R52, R54). -/
def State.watch (s : State) : State := s.modTb fun t => { t with watchFrom := s.clock }

/-- The reference returns (R54): a frame pulse, unless it comes too soon after the last flywheel pulse. -/
def State.refReturned (s : State) (p : Pulse) : State :=
  let early := s.early
  let s := (s.modTb fun t => { t with refLost := false }).watch
  if early then s.postLock .refReturned else ((s.raise).postLock .refReturned).blocks p

/-- The reference is lost (R53): REF_LOST, the flywheel, one LOCK notice (with INELIGIBLE at a source, R67), and its pulse. -/
def State.loseRef (s : State) (p : Pulse) : State :=
  let was := s.tb.source
  let s := s.modTb fun t => { t with refLost := true }
  let s := if was then s.dropSource.modTb fun t => { t with silence := 0, followed := none } else s
  ((s.postLock .refLost (if was then some .ineligible else none)).raise).blocks p

/-- 1.5 nominal periods have passed without a reference pulse taken (R53). -/
def State.refOverdue (s : State) : Bool :=
  decide (3 * nominalPeriod s.config.rate ≤ 2 * (s.clock - s.tb.watchFrom))

/-- A nominal period has passed since the last frame pulse (R53). -/
def State.flywheelDue (s : State) : Bool :=
  match s.tb.lastPulse with
  | some t => decide (nominalPeriod s.config.rate ≤ s.clock - t)
  | none => true

end Sys2Proof.Machine
end

