-- ==== Sys2Proof/Machine/Line.lean ====
section
/-! DEFINITION. The line controller: attempts, collisions, back-off and completions (R131 to R137), the number clash (R143),
and what a reception proves to be (R138 to R141). -/

namespace Sys2Proof.Machine

/-! ## Where a command acts -/

/-- A command that brings `dt` of real time: ignored while the reset pin is asserted (R147). -/
def State.live (s : State) (dt : Nat) (f : State → State) : State := if s.run = .reset then s else f (s.elapse dt)

/-- A command that acts in RUN alone. -/
def State.inRun (s : State) (dt : Nat) (f : State → State) : State :=
  s.live dt fun s => if s.isRun then f s else s

/-! ## Attempts (R131, R132) -/

/-- The fields stamped at each attempt (R42, R65). -/
def OutMsg.stamp (m : OutMsg) (now : Frame) (airCount : Word) : OutMsg :=
  match m with
  | .mark _ => .mark now
  | .air _ a => .air airCount a
  | .yield _ | .presence _ | .edit _ | .ask | .ready _ _ | .relay _ _ | .part _ _ => m

/-- The head of a queue replaced. -/
def setHead (q : List TxMsg) (m : TxMsg) : List TxMsg := m :: q.tail

/-- An attempt begins (R132): stamps, reservation, and the bytes on the line. A MARK keeps the frame stamped now, though a frame
pulse come before its delimiter has gone out, 32 bit times on (R65; log 30). -/
def State.beginAttempt (s : State) (c : TxClass) (m : TxMsg) : State :=
  let msg := m.msg.stamp s.now s.store.summary.airCount
  let s := s.modLine fun l => { l.setQueue c (setHead (l.queue c) { m with msg := msg }) with
    transmitting := true, attemptAt := s.clock, driven := msg.transmission s.straps.number, rx := .none }
  if msg.needsPlace then s.modApply fun a => { a with reserved := true } else s

/-- The line has been idle long enough (R132): the idle time counts from the reset at the earliest (R145). -/
def State.idleEnough (s : State) (idle : Nat) : Bool := decide (96 ≤ idle ∧ 96 * bitTime ≤ s.clock)

/-- The message in flight is attempted where R132 allows it. One that lacks its place in the apply queue leaves flight and the
arbiter chooses again at once (R131). -/
def State.tryAttempt (s : State) (idle : Nat) : State :=
  if s.line.transmitting ∨ s.line.backoff.isSome ∨ s.idleEnough idle = false then s else
  let begin := fun (t : State) => match t.line.flight, t.line.inFlight with
    | some c, some m => t.beginAttempt c m
    | _, _ => t
  match s.line.inFlight with
  | none => s
  | some m =>
    if m.allowed s.apply.freePlaces then begin s
    else begin ((s.modLine fun l => { l with flight := none }).arbitrate)

/-! ## Endings of an attempt (R133 to R136) -/

/-- The contention window, the first 64 bit times of a transmission (R126). -/
def contentionWindow : Nat := 64 * bitTime

/-- The jam, 32 bits (R133). -/
def jamTime : Nat := 32 * bitTime

/-- Attempts of a message at most (R135). -/
def attemptLimit : Nat := 16

def TxClass.offset : TxClass → Nat
  | .urgent => 0 | .routine => 32 | .bulk => 64

/-- The back-off in slots (R134): class offset plus (n + k + f) modulo 32. -/
def backoffSlots (c : TxClass) (n : StationNo) (attempts : Nat) (f : Frame) : Nat :=
  c.offset + (n.val + attempts + f.toNat) % 32

/-- The attempt ends, `driven` being the last of it, and a reservation is released. What was heard of the line meanwhile was this
station's own transmission (R138). -/
def State.endAttempt (s : State) (driven : List Byte) : State :=
  (s.modLine fun l => { l with transmitting := false, driven := driven, rx := .none }).modApply fun a =>
    { a with reserved := false }

/-- The message in flight leaves its queue and the flight. -/
def State.leaveFlight (s : State) (c : TxClass) : State :=
  s.modLine fun l => { l.setQueue c (l.queue c).tail with flight := none, backoff := none }

/-- A give-up counted in the line record, by kind (R135, R144). -/
def LineRecord.giveUp (r : LineRecord) (m : OutMsg) : LineRecord :=
  match m with
  | .presence _ => { r with presenceGivenUp := bump r.presenceGivenUp }
  | .mark _ => { r with markGivenUp := bump r.markGivenUp }
  | .part _ _ => { r with partGivenUp := bump r.partGivenUp }
  | .air _ _ | .yield _ | .edit _ | .ask | .ready _ _ | .relay _ _ => r

/-- A give-up is reported to the block that offered the message (R135). -/
def State.reportGiveUp (s : State) (m : OutMsg) : State :=
  match m with
  | .ask => s.askLost
  | .yield _ => s.yieldLost
  | .part k _ => s.partGivenUp k
  | .mark _ | .air _ _ | .presence _ | .edit _ | .ready _ _ | .relay _ _ => s

/-- A collision in the contention window, at the end of its jam (R133 to R135, R137; log 22). -/
def State.collide (s : State) : State :=
  match s.line.flight, s.line.inFlight with
  | some c, some m =>
    let s := (s.endAttempt (le32 Config.jamPattern)).modLine fun l => { l with record := { l.record with collisions := bump l.record.collisions } }
    let k := m.attempts + 1
    if m.withdrawn then
      let s := s.leaveFlight c
      (if m.msg.isOrdered then s.sendFailed m.msg .notInStep else s).arbitrate
    else if attemptLimit ≤ k then
      let s := (s.leaveFlight c).modLine fun l => { l with record := l.record.giveUp m.msg }
      ((s.sendFailed m.msg .attempts).reportGiveUp m.msg).arbitrate
    else
      s.modLine fun l => { l.setQueue c (setHead (l.queue c) { m with attempts := k }) with
        backoff := some ⟨backoffSlots c s.straps.number k s.now, s.clock⟩ }
  | _, _ => s

/-- The back-off wait has run out (R134). -/
def State.backoffOver (s : State) : Bool :=
  match s.line.backoff with
  | some b => decide (b.since + b.slots * slotTime ≤ s.clock)
  | none => false

/-- The station's own copy of an ordered message that completed (R24, R26, R136). -/
def State.ownCopy (s : State) (m : Ordered) : State :=
  if s.sync.step = .inStep then
    (s.modApply fun a => { a with queue := a.queue ++ [.ordered s.straps.number m] }).kick
  else s

/-- What a completion brings, by kind (R136). -/
def State.completed (s : State) (m : TxMsg) : State :=
  match m.msg with
  | .air n a => s.ownCopy (.air n a)
  | .edit e => s.ownCopy (.edit e)
  | .part k _ =>
    if k = 0 then s.openingSent m.withdrawn else s.partSent k
  | .ask => s.askSent
  | .yield _ => s.yieldSent
  | .presence c => s.modRoster fun r => { r with lastSent := some (s.now, c) }
  | .mark _ | .ready _ _ | .relay _ _ => s

/-- An attempt completes (R136). -/
def State.complete (s : State) : State :=
  match s.line.flight, s.line.inFlight with
  | some c, some m => (((s.endAttempt []).leaveFlight c).completed m).arbitrate
  | _, _ => s

/-! ## Number clash (R143) -/

/-- Every message of the three queues, URGENT first (log 25). -/
def Line.all (l : Line) : List OutMsg := (l.urgent ++ l.routine ++ l.bulk).map (·.msg)

/-- The station becomes muted, if it is not so already (R143): the queues are flushed, and the other blocks told. A flushed ASK is
reported to nobody: R143 names a report for a PART alone (log 32). The LOCK notice of a source stands before the ROLE notice of an
ACTIVE member (log 9). -/
def State.mute (s : State) : State :=
  if s.line.muted then s else
  let out := s.line.all
  let s := s.modLine fun l => { l with
    muted := true, urgent := [], routine := [], bulk := [], flight := none, backoff := none }
  (((s.sendFailedAll out .muted).syncMuted).timebaseMuted).pairMuted

/-! ## Receipt (R138 to R140) -/

/-- What a reception proves to be. -/
inductive RxClass
  | fragment
  | headerFailure
  | notTaken
  | badChecks (source : Byte) (kind : Option Kind)
  | badForm
  | good (source : StationNo) (dest : Byte) (m : RxMsg)
  deriving DecidableEq, Repr

/-- Header and rest of a reception: destination, source, kind, length and header check (R126). -/
def rxHeader (r : Reception) : Option (Byte × Byte × Byte × Byte × Byte × List Byte) :=
  match r.bytes with
  | d :: s :: k :: n :: h :: rest => if 9 ≤ r.bytes.length then some (d, s, k, n, h, rest) else none
  | _ => none

/-- The header check of a reception of 9 bytes or more passes (R127); that of a fragment is not looked at (log 43). -/
def rxHeaderPasses (r : Reception) : Bool :=
  match rxHeader r with
  | some (d, s, k, n, h, _) => decide (crc8 [d, s, k, n] = h)
  | none => false

/-- The length is the expected one, without a framing fault, and the message check passes (R127, R138). -/
def rxChecksPass (r : Reception) : Bool :=
  match rxHeader r with
  | some (_, _, _, n, _, rest) =>
    !r.overrun && decide (rest.length = n.toNat + 4)
      && decide (le32 (crc32 (r.bytes.take (5 + n.toNat))) = rest.drop n.toNat)
  | none => false

/-- The source byte of a reception whose header passes. -/
def rxSource (r : Reception) : Option Byte :=
  if rxHeaderPasses r then (rxHeader r).map (·.2.1) else none

/-- The tests of R138 to R140, in their order; the number clash apart. -/
def State.classify (s : State) (r : Reception) : RxClass :=
  match rxHeader r with
  | none => .fragment
  | some (d, src, k, n, _, rest) =>
    if !rxHeaderPasses r then .headerFailure
    else if !s.takesDest d then .notTaken
    else if !rxChecksPass r then .badChecks src (Kind.ofCode k)
    else match Kind.ofCode k with
      | none => .badForm
      | some kind =>
        if !destForm kind d || decide (32 ≤ src.toNat) then .badForm
        else match readPayload kind (rest.take n.toNat) with
          | some m => .good (Fin.ofNat 32 src.toNat) d m
          | none => .badForm

/-- The reception, no fragment (log 43), bears this station's own number (R140, step 1); that the station was not transmitting when
its delimiter came is `RxState.inRun`. -/
def State.clashes (s : State) (r : Reception) : Bool := decide (rxSource r = some (byteOf s.straps.number.val))

/-- The reception in progress is over. -/
def State.rxOver (s : State) : State := s.modLine fun l => { l with rx := .none }

/-- A reception ends (R138): `f` acts on it where its delimiter came in RUN with this station silent; else it is discarded whole. -/
def State.reception (s : State) (dt : Nat) (f : State → State) : State :=
  s.live dt fun s => if s.isRun ∧ s.line.rx = .inRun then f s else s.rxOver

/-- A message bearing this station's own number is not for the roster, the timebase and the pair monitor (R141). -/
def State.unlessOwn (n : StationNo) (f : State → State) (s : State) : State := if n = s.straps.number then s else f s

/-- One count of the line record raised (R144). -/
def State.count (s : State) (f : LineRecord → LineRecord) : State := s.modLine fun l => { l with record := f l.record }

/-- A reception that is not accepted (R138 to R140); an accepted one leaves the state alone (log 34). A fragment of 5 to 8 bytes is
counted and no more, even where its header check passes and it bears this station's number: no clash test is made (log 43). -/
def State.reject (s : State) (rx : Reception) : State :=
  let t := s.rxOver
  let t := if t.clashes rx then t.mute else t
  match s.classify rx with
  | .fragment => s.rxOver.count fun r => { r with fragments := bump r.fragments }
  | .headerFailure => (s.rxOver.count fun r => { r with headerFailures := bump r.headerFailures }).possibleLoss
  | .notTaken => t.count fun r => { r with destinationDiscards := bump r.destinationDiscards }
  | .badChecks src kind =>
    let t := t.count fun r => { r with messageFailures := bump r.messageFailures }
    match kind with
    | some .part => if src.toNat < 32 then t.partLost (Fin.ofNat 32 src.toNat) else t
    | some k => if k.ordered then t.possibleLoss else t
    | none => t
  | .badForm => t.count fun r => { r with formDiscards := bump r.formDiscards }
  | .good _ _ _ => s

/-- A reception that may prove to be an accepted message of the kind that `act` acts on; one of another kind leaves the state alone
(log 34), and one that is not accepted is discarded as its tests say. The number clash comes first (R140). -/
def State.receive (s : State) (dt : Nat) (rx : Reception) (act : StationNo → Byte → RxMsg → Option (State → State)) : State :=
  s.reception dt fun s =>
    match s.classify rx with
    | .good source dest m =>
      match act source dest m with
      | some f =>
        let s := s.rxOver
        f (if s.clashes rx then s.mute else s)
      | none => s
    | .fragment | .headerFailure | .notTaken | .badChecks _ _ | .badForm => s.reject rx

end Sys2Proof.Machine
end

