-- ==== Sys2Proof/Machine/Edits.lean ====
section
/-! DEFINITION. What edit operations and air messages do to a replica, each with its checks in their order (R32 to R39, R43 to
R48). A check that fails answers the refusal reason. -/

namespace Sys2Proof.Machine

/-! ## Items of a replica -/

def Replica.item (r : Replica) (id : ItemId) : Option Item := r.items.find? fun i => decide (i.id = id)

def Replica.has (r : Replica) (id : ItemId) : Bool := (r.item id).isSome

/-- Every item of this id replaced. -/
def Replica.mapItem (r : Replica) (id : ItemId) (f : Item → Item) : Replica :=
  { r with items := r.items.map fun i => if i.id = id then f i else i }

def Replica.setStatus (r : Replica) (id : ItemId) (st : ItemStatus) : Replica := r.mapItem id fun i => { i with status := st }

/-- The anchor is named and no item of the list bears it (R32, R34). -/
def Replica.lacks (r : Replica) : Option ItemId → Bool
  | some a => !r.has a
  | none => false

/-- The cue count (R12). -/
def Replica.cueCount (r : Replica) : Nat := r.items.foldl (fun n i => n + i.cues.length) 0

/-- STANDING_BY or ON_AIR: no EDIT may touch it (R35). -/
def ItemStatus.isLocked : ItemStatus → Bool
  | .standingBy | .onAir _ => true
  | .pending | .done .. | .skipped => false

/-- An item placed at the head, or directly after its anchor (R32, R34). -/
def placeAfter (i : Item) (anchor : Option ItemId) (items : List Item) : List Item :=
  match anchor with
  | none => i :: items
  | some a => items.flatMap fun x => if x.id = a then [x, i] else [x]

/-- A cue put in its place in slot order (R12). -/
def insertCue (c : Cue) : List Cue → List Cue
  | [] => [c]
  | x :: r => if c.slot < x.slot then c :: x :: r else x :: insertCue c r

def sortCues (cs : List Cue) : List Cue := cs.foldr insertCue []

/-- Two cues of a list share a slot. -/
def sharesSlot : List Cue → Bool
  | [] => false
  | c :: r => r.any (fun x => decide (x.slot = c.slot)) || sharesSlot r

/-- The limits of R7. -/
def maxItems : Nat := 96
def maxCues : Nat := 512
def maxItemCues : Nat := 16

/-- The item must be in the list and not locked (R33, R35). -/
def Replica.unlocked (r : Replica) (id : ItemId) : Except Result Item :=
  match r.item id with
  | none => .error .noItem
  | some i => if i.status.isLocked then .error .lockedItem else .ok i

/-! ## Edit operations (R32 to R39) -/

/-- Planned fields of an INSERT from its flag byte: FLOAT, FIXED, PLAN_SHORT, short present; the other bits name no flag. -/
def insertItem (id : ItemId) (slug : List Byte) (planned : BitVec 24) (flags : Byte) (short : BitVec 24) (cues : List Cue) :
    Option Item :=
  if slugOk slug ∧ flags.toNat < 16 ∧ (flags.getLsbD 3 ∨ short = 0) then
    some ⟨id, slug, planned, if flags.getLsbD 3 then some short else none, flags.getLsbD 0, flags.getLsbD 1,
      flags.getLsbD 2, .pending, sortCues cues⟩
  else none

/-- INSERT (R32). -/
def Replica.insert (r : Replica) (anchor : Option ItemId) (id : ItemId) (slug : List Byte) (planned : BitVec 24) (flags : Byte)
    (short : BitVec 24) (raw : List (List Byte)) : Except Result Replica :=
  if maxItemCues < raw.length then .error .itemCuesFull else
  match readCues raw with
  | none => .error .badValue
  | some cues =>
    match insertItem id slug planned flags short cues with
    | none => .error .badValue
    | some i =>
      if sharesSlot cues then .error .slotTaken
      else if r.has id then .error .duplicateId
      else if r.lacks anchor then .error .noAnchor
      else if maxItems ≤ r.items.length then .error .itemsFull
      else if maxCues < r.cueCount + cues.length then .error .cuesFull
      else .ok { r with items := placeAfter i anchor r.items }

/-- DELETE (R33). -/
def Replica.delete (r : Replica) (id : ItemId) : Except Result Replica :=
  match r.unlocked id with
  | .error e => .error e
  | .ok _ => .ok { r with items := r.items.filter fun i => decide (i.id ≠ id) }

/-- MOVE (R34). -/
def Replica.move (r : Replica) (id : ItemId) (anchor : Option ItemId) : Except Result Replica :=
  match r.unlocked id with
  | .error e => .error e
  | .ok i =>
    if r.lacks anchor || decide (anchor = some id) then .error .noAnchor
    else .ok { r with items := placeAfter i anchor (r.items.filter fun x => decide (x.id ≠ id)) }

/-- Fields of an item as AMEND replaces them (R35). -/
def Item.amend (i : Item) (slug : Option (List Byte)) (planned : Option (BitVec 24)) (short : Option (Option (BitVec 24)))
    (flags : Option Byte) : Item :=
  let j := { i with slug := slug.getD i.slug, planned := planned.getD i.planned, short := short.getD i.short }
  match flags with
  | some f => { j with float := f.getLsbD 0, fixed := f.getLsbD 1, planShort := f.getLsbD 2 }
  | none => j

/-- AMEND (R35). -/
def Replica.amend (r : Replica) (id : ItemId) (slug : Option (List Byte)) (planned : Option (BitVec 24))
    (short : Option (Option (BitVec 24))) (flags : Option Byte) : Except Result Replica :=
  let slugBad := match slug with
    | some x => !slugOk x
    | none => false
  let flagsBad := match flags with
    | some f => decide (8 ≤ f.toNat)
    | none => false
  if slugBad || flagsBad then .error .badValue else
  match r.unlocked id with
  | .error e => .error e
  | .ok _ => .ok (r.mapItem id fun i => i.amend slug planned short flags)

/-- ADD_CUE (R36). -/
def Replica.addCue (r : Replica) (id : ItemId) (raw : List Byte) : Except Result Replica :=
  match readCue raw with
  | none => .error .badValue
  | some c =>
    match r.unlocked id with
    | .error e => .error e
    | .ok i =>
      if maxItemCues ≤ i.cues.length then .error .itemCuesFull
      else if i.cues.any fun x => decide (x.slot = c.slot) then .error .slotTaken
      else if maxCues ≤ r.cueCount then .error .cuesFull
      else .ok (r.mapItem id fun i => { i with cues := insertCue c i.cues })

/-- DROP_CUE (R37). -/
def Replica.dropCue (r : Replica) (id : ItemId) (slot : Byte) : Except Result Replica :=
  if 16 ≤ slot.toNat then .error .badValue else
  match r.unlocked id with
  | .error e => .error e
  | .ok i =>
    if i.cues.any fun x => decide (x.slot.val = slot.toNat) then
      .ok (r.mapItem id fun i => { i with cues := i.cues.filter fun x => decide (x.slot.val ≠ slot.toNat) })
    else .error .noCue

/-- SET_OUT (R38). -/
def Replica.setOut (r : Replica) (f : Option Frame) : Replica := { r with hardOut := f }

/-- REVIVE (R39). -/
def Replica.revive (r : Replica) (id : ItemId) : Except Result Replica :=
  match r.unlocked id with
  | .error e => .error e
  | .ok _ => .ok (r.setStatus id .pending)

/-- One operation on the replica as it would stand (R31). -/
def Replica.operate (r : Replica) : RawOp → Except Result Replica
  | .insert anchor id slug planned flags short cues => r.insert anchor id slug planned flags short cues
  | .delete id => r.delete id
  | .move id anchor => r.move id anchor
  | .amend id slug planned short flags => r.amend id slug planned short flags
  | .addCue id cue => r.addCue id cue
  | .dropCue id slot => r.dropCue id slot
  | .setOut f => .ok (r.setOut f)
  | .revive id => r.revive id

/-! ## Air messages (R43 to R48) -/

/-- A hold total raised, up to the limit of R11. -/
def addHold (total : Word) (more : Word) : Word := BitVec.ofNat 32 (min (total.toNat + more.toNat) maxSpan)

/-- The hold total once a hold from `h` ends at `f`: raised by f less h, or by 0 if f is at or before h (R44, R46). -/
def holdEnded (total : Word) (h f : Frame) : Word := if later f h then addHold total (f - h) else total

/-- An item on air ends at `f` (R44, R48). -/
def Airing.finish (a : Airing) (f : Frame) : ItemStatus :=
  .done a.start a.short (match a.heldAt with
    | some h => holdEnded a.holdTotal h f
    | none => a.holdTotal) f (f - a.start)

/-- Any STANDING_BY item other than `id` returns to PENDING (R43, R44). -/
def Replica.standDown (r : Replica) (id : ItemId) : Replica :=
  { r with items := r.items.map fun i => if i.status = .standingBy ∧ i.id ≠ id then { i with status := .pending } else i }

/-- The ON_AIR item ends at `f`, if there is one. -/
def Replica.endOnAir (r : Replica) (f : Frame) : Replica :=
  match onAirItem r with
  | some (i, a) => r.setStatus i.id (a.finish f)
  | none => r

def ItemStatus.isWaiting : ItemStatus → Bool
  | .pending | .standingBy => true
  | .onAir _ | .done .. | .skipped => false

/-- The frame is not later than the start of the ON_AIR item (R44, R48). -/
def Replica.tooEarly (r : Replica) (f : Frame) : Bool :=
  match onAirItem r with
  | some (_, a) => !later f a.start
  | none => false

/-- What an air message makes of the replica, header counts apart (R43 to R48). -/
def Replica.air (r : Replica) : AirMsg → Except Result Replica
  | .standby id =>
    match r.item id with
    | none => .error .noItem
    | some i => if i.status ≠ .pending then .error .wrongState else .ok ((r.standDown id).setStatus id .standingBy)
  | .take id f short =>
    match r.item id with
    | none => .error .noItem
    | some i =>
      if !i.status.isWaiting then .error .wrongState
      else if r.tooEarly f then .error .tooEarly
      else .ok (((r.endOnAir f).standDown id).setStatus id (.onAir ⟨f, short, 0, none⟩))
  | .hold f =>
    match onAirItem r with
    | none => .error .notOnAir
    | some (i, a) =>
      if a.heldAt.isSome then .error .alreadyHeld
      else if i.fixed then .error .fixedItem
      else .ok (r.setStatus i.id (.onAir { a with heldAt := some (if earlier f a.start then a.start else f) }))
  | .resume f =>
    match onAirItem r with
    | none => .error .notOnAir
    | some (i, a) =>
      match a.heldAt with
      | none => .error .notHeld
      | some h => .ok (r.setStatus i.id (.onAir { a with heldAt := none, holdTotal := holdEnded a.holdTotal h f }))
  | .skip id =>
    match r.item id with
    | none => .error .noItem
    | some i => if !i.status.isWaiting then .error .wrongState else .ok (r.setStatus id .skipped)
  | .close f =>
    match onAirItem r with
    | none => .error .notOnAir
    | some _ => if r.tooEarly f then .error .tooEarly else .ok (r.endOnAir f)

/-- The item an air message acts on (R49): the one it names, or the ON_AIR item. -/
def AirMsg.subject (m : AirMsg) (r : Replica) : Option ItemId :=
  match m with
  | .standby id | .take id _ _ | .skip id => some id
  | .hold _ | .resume _ | .close _ => (onAirItem r).map (·.1.id)

/-- The new check word (R5). -/
def Replica.sealed (r : Replica) : Replica := { r with check := r.checkWord }

end Sys2Proof.Machine
end

