-- ==== Sys2Proof/Machine/Apply.lean ====
section
/-! DEFINITION. The apply engine on the station: the end of an apply, its notice and outcome report (R25, R30, R31, R41, R42, R49,
R50), and the commands INSERT to CLOSE. -/

namespace Sys2Proof.Machine

/-- LIVE and the summary copy are written in one operation (R6). -/
def State.commit (s : State) (r : Replica) : State :=
  s.modStore fun st => { st with live := r, summary := r.summary }

/-- The operation ends: the store goes to the next client, the entry leaves the queue, the next becomes the head (R18, R25). -/
def State.closeApply (s : State) : State :=
  ((s.release).modApply fun a => { a with batch := none }).popQueue.kick

/-- A gap at the head (R25): the entry leaves, and the sync engine is told. -/
def State.gapFound (s : State) (kind : Kind) (carried : Word) : State :=
  (((s.release).modApply fun a => { a with batch := none }).popQueue.leaveInStep (.gap kind carried)).kick

/-! ## EDIT (R30, R31, R41) -/

def State.editDone (s : State) (m : EditMsg) (result : Result) (index : Nat) (inserted : List ItemId) : State :=
  s.post (.editDone m.proposer m.tag result index s.store.live.version inserted)

def State.refuseEdit (s : State) (m : EditMsg) (result : Result) (index : Nat) : State :=
  (s.editDone m result index []).closeApply

/-- The batch takes effect whole; the version rises by one (R31). -/
def State.acceptEdit (s : State) (m : EditMsg) (b : Batch) : State :=
  let s := s.commit ({ b.work with version := b.work.version + 1 } : Replica).sealed
  let s := s.editDone m .applied 0 b.inserted
  let s := s.emit fun env e => e.onEdit env (b.deleted ++ b.revived) b.setOut
  s.wantProjection.closeApply

def Batch.start (r : Replica) (m : EditMsg) : Batch :=
  { work := r, index := 0, rest := m.ops, inserted := [], deleted := [], revived := [], setOut := false }

/-- What the outcome report will name (R50). -/
def Batch.note (b : Batch) : RawOp → Batch
  | .insert _ id _ _ _ _ _ => { b with inserted := b.inserted ++ [id] }
  | .delete id => { b with deleted := b.deleted ++ [id] }
  | .revive id => { b with revived := b.revived ++ [id] }
  | .setOut _ => { b with setOut := true }
  | .move _ _ | .amend _ _ _ _ _ | .addCue _ _ | .dropCue _ _ => b

/-- The next operation of the batch, where it is of this command's kind. One that cannot be read fails with BAD_VALUE, whichever
command comes (R31; log 11). -/
def State.editNext (s : State) (row : RawOp → Bool) (m : EditMsg) (b : Batch) : State :=
  match cutOp true b.rest with
  | none => s.refuseEdit m .badValue (b.index + 1)
  | some (bytes, rest) =>
    match readOp bytes with
    | none => s.refuseEdit m .badValue (b.index + 1)
    | some op =>
      if !row op then s else
      match b.work.operate op with
      | .error e => s.refuseEdit m e (b.index + 1)
      | .ok r =>
        let b := { b.note op with work := r, index := b.index + 1, rest := rest }
        if b.index = m.count.toNat then s.acceptEdit m b else s.modApply fun a => { a with batch := some b }

/-- An operation of the EDIT at the head, which holds the store (R25, R30, R31). -/
def State.applyEdit (s : State) (row : RawOp → Bool) : State :=
  match s.applying, s.apply.queue with
  | true, .ordered _ (.edit m) :: _ =>
    match s.apply.batch with
    | some b => s.editNext row m b
    | none =>
      let v := s.store.live.version
      if v.toNat < m.base.toNat then s.gapFound .edit m.base
      else if m.base ≠ v then s.refuseEdit m .stale 0
      else if m.count = 0 ∨ 6 < m.count.toNat then s.refuseEdit m .badValue 0
      else s.editNext row m (Batch.start s.store.live m)
  | _, _ => s

/-! ## Air messages (R42, R49, R50) -/

/-- The item STANDING_BY other than `id`. -/
def otherStandby (r : Replica) (id : ItemId) : Option ItemId :=
  match standingByItem r with
  | some i => if i.id = id then none else some i.id
  | none => none

/-- The ON_AIR item of the old replica as the new one holds it, with its end frame. -/
def doneItem (old new : Replica) (f : Frame) : Option (Item × Frame) :=
  match onAirItem old with
  | some (i, _) => (new.item i.id).map fun j => (j, f)
  | none => none

/-- The outcome report to the cue scheduler (R50, R79, R80, R91, R92, R94, R95). -/
def State.reportScheduler (s : State) (m : AirMsg) (old new : Replica) : State :=
  match m with
  | .standby id =>
    match new.item id with
    | some i => s.emit fun env e => e.onStandby env i (otherStandby old id)
    | none => s
  | .take id f _ =>
    match new.item id, onAirItem new with
    | some i, some (_, a) =>
      s.emit fun env e => e.onTake env i a ((doneItem old new f).map fun x => (x.1.id, f)) (otherStandby old id)
    | _, _ => s
  | .hold _ =>
    match onAirItem new with
    | some (i, a) => s.emit fun env e => e.onHold env i.id (a.heldAt.getD a.start)
    | none => s
  | .resume f =>
    match onAirItem new with
    | some (i, a) => s.emit fun env e => e.onResume env i.id f a.holdTotal
    | none => s
  | .skip id => s.emit fun env e => e.cancelItem env .skipped id
  | .close f => s.emit fun env e => e.onEnd env ((doneItem old new f).map fun x => (x.1.id, f)) none

/-- The outcome report to the timing unit (R116, R119, R120). One that comes between an adoption and its projection read builds
records like any other, though R124 has the timer hold none until then (log 47). -/
def State.reportTiming (s : State) (m : AirMsg) (old new : Replica) : State :=
  (match m with
   | .standby _ | .skip _ => s
   | .take id f _ =>
     let done := doneItem old new f
     let s := match new.item id, onAirItem new with
       | some i, some (_, a) => (s.modTiming (·.onTake i a done)).reclaim
       | _, _ => s
     match done with
     | some (i, _) => s.postTiming i true
     | none => s
   | .hold _ | .resume _ =>
     match onAirItem new with
     | some (_, a) => (s.modTiming (·.onHold a)).reclaim
     | none => s
   | .close f =>
     match doneItem old new f with
     | some (i, f) => ((s.modTiming (·.endItem i f)).reclaim).postTiming i false
     | none => s).wantProjection

/-- The air message at the head, which holds the store, where it is of this command's kind (R25, R42). -/
def State.applyAir (s : State) (row : AirMsg → Bool) : State :=
  match s.applying, s.apply.queue with
  | true, .ordered source (.air n m) :: _ =>
    if !row m then s else
    let old := s.store.live
    if old.airCount.toNat < n.toNat then s.gapFound m.kind n else
    match old.air m with
    | .error e => (s.post (.airDone source m (m.subject old) e old.airCount)).closeApply
    | .ok r =>
      let new := ({ r with airCount := r.airCount + 1 } : Replica).sealed
      let s := s.commit new
      let s := s.post (.airDone source m (m.subject old) .applied new.airCount)
      ((s.reportScheduler m old new).reportTiming m old new).closeApply
  | _, _ => s

/-! ## The commands -/

/-- INSERT (R32). -/
def execInsert (s : State) : Outcome :=
  (s.applyEdit fun | .insert _ _ _ _ _ _ _ => true | _ => false).done

/-- DELETE (R33). -/
def execDelete (s : State) : Outcome :=
  (s.applyEdit fun | .delete _ => true | _ => false).done

/-- MOVE (R34). -/
def execMove (s : State) : Outcome :=
  (s.applyEdit fun | .move _ _ => true | _ => false).done

/-- AMEND (R35). -/
def execAmend (s : State) : Outcome :=
  (s.applyEdit fun | .amend _ _ _ _ _ => true | _ => false).done

/-- ADD_CUE (R36). -/
def execAddCue (s : State) : Outcome :=
  (s.applyEdit fun | .addCue _ _ => true | _ => false).done

/-- DROP_CUE (R37). -/
def execDropCue (s : State) : Outcome :=
  (s.applyEdit fun | .dropCue _ _ => true | _ => false).done

/-- SET_OUT (R38). -/
def execSetOut (s : State) : Outcome :=
  (s.applyEdit fun | .setOut _ => true | _ => false).done

/-- REVIVE (R39). -/
def execRevive (s : State) : Outcome :=
  (s.applyEdit fun | .revive _ => true | _ => false).done

/-- STANDBY (R43). -/
def execStandby (dt : Nat) (s : State) : Outcome :=
  (s.live dt (·.applyAir fun | .standby _ => true | _ => false)).done

/-- TAKE (R44). -/
def execTake (dt : Nat) (s : State) : Outcome :=
  (s.live dt (·.applyAir fun | .take _ _ _ => true | _ => false)).done

/-- HOLD (R45). -/
def execHold (dt : Nat) (s : State) : Outcome :=
  (s.live dt (·.applyAir fun | .hold _ => true | _ => false)).done

/-- RESUME (R46). -/
def execResume (dt : Nat) (s : State) : Outcome :=
  (s.live dt (·.applyAir fun | .resume _ => true | _ => false)).done

/-- SKIP (R47). -/
def execSkip (dt : Nat) (s : State) : Outcome :=
  (s.live dt (·.applyAir fun | .skip _ => true | _ => false)).done

/-- CLOSE (R48). -/
def execClose (dt : Nat) (s : State) : Outcome :=
  (s.live dt (·.applyAir fun | .close _ => true | _ => false)).done

end Sys2Proof.Machine
end

