-- ==== Sys2Proof/Machine/StoreOps.lean ====
section
/-! DEFINITION. The store's other operations as they complete: freeze copy, parts, check, swap, and the reads of the scheduler and
the timing unit (R16 to R20, R96, R120, R168, R172, R174, R176, R191). -/

namespace Sys2Proof.Machine

/-- STORE_GRANT (R18): the store, when free, goes to the waiting client first in precedence. -/
def execStoreGrant (s : State) : Outcome :=
  .next (if s.store.holder.isNone then s.modStore Store.grantNext else s)

/-- The freeze copy completes (R19, R167): a responder still FREEZING begins SENDING, and the marker leaves. SHADOW empties where
the copy was abandoned, though a new round have come to FREEZING since (R170). -/
def State.freezeDone (s : State) : State :=
  let made := !s.store.dropped && decide (s.sync.responder = .freezing)
  let s := if made then
      (s.modStore fun st => { st with shadow := st.live, use := .frozen }).modSync fun y =>
        { y with responder := .sending, nextPart := some 1 }
    else s.modStore Store.emptyShadow
  let s := (s.release).popQueue.kick
  if made then s.readPart else s

/-- FREEZE_COPY (R19). -/
def execFreezeCopy (s : State) : Outcome :=
  (if s.store.holder = some .freezeCopy then s.freezeDone else s).done

/-- A part's content has been read and is offered (R168); of an abandoned stream it is dropped, and SHADOW empties (R170). -/
def State.partReadDone (s : State) (k : Nat) : State :=
  let content := partContent s.store.shadow k
  if s.store.dropped then (s.release).modStore Store.emptyShadow
  else
    let s := s.release
    if s.canOffer (.part k content) then s.enqueue (.part k content) else s.abandonResponder

/-- PART_READ (R168). -/
def execPartRead (s : State) : Outcome :=
  (match s.store.holder with
   | some (.partRead k) => s.partReadDone k
   | _ => s).done

/-- What a part makes of an ASSEMBLING SHADOW; `none` where its check fails (R172). -/
def Replica.writePart (r : Replica) (k : Nat) (content : List Byte) : Option Replica :=
  if k = 1 then (readPart1 content).map (·.1) else
  match readItem content with
  | none => none
  | some i =>
    let next : Replica := { r with items := r.items ++ [i] }
    let onAir := next.items.countP fun j => match j.status with
      | .onAir _ => true
      | .pending | .standingBy | .done .. | .skipped => false
    let standing := next.items.countP fun j => decide (j.status = .standingBy)
    if !r.has i.id ∧ onAir ≤ 1 ∧ standing ≤ 1 ∧ next.cueCount ≤ maxCues ∧ next.items.length ≤ maxItems then some next
    else none

/-- A part write completes (R172): the next part is wanted, or the check after the last; a failed check abandons. -/
def State.partWriteDone (s : State) (k : Nat) (content : List Byte) : State :=
  if s.store.dropped then (s.release).wantWrite else
  match s.store.shadow.writePart k content with
  | none => (s.release).abandonCatchUp .badPart
  | some r =>
    let s := (s.modStore fun st => { st with shadow := r }).release
    let s := s.modSync fun y => { y with written := y.written + 1, buffer := y.buffer.tail }
    if s.sync.count.map (· + 1) = some s.sync.written then
      (s.modSync fun y => { y with phase := .checking }).request .shadowCheck
    else s.wantWrite

/-- PART_WRITE (R172). -/
def execPartWrite (s : State) : Outcome :=
  (match s.store.holder with
   | some (.partWrite k c) => s.partWriteDone k c
   | _ => s).done

/-- The check of an assembled SHADOW completes (R174). -/
def State.shadowCheckDone (s : State) : State :=
  if s.store.dropped then (s.release).wantWrite
  else if s.store.shadow.checkWord ≠ s.store.shadow.check then (s.release).abandonCatchUp .check
  else ((s.release).modSync fun y => { y with phase := .swapping }).request .bankSwap

/-- SHADOW_CHECK (R174). -/
def execShadowCheck (s : State) : Outcome :=
  (if s.store.holder = some .shadowCheck then s.shadowCheckDone else s).done

/-- The serial counter after an adoption (R40): one more than the highest serial of this station's items. -/
def serialAfter (n : StationNo) (items : List Item) : Fin 2048 :=
  let own := (items.filter fun i => decide (i.id.toNat / 2048 = n.val)).map fun i => i.id.toNat % 2048
  match own with
  | [] => 0
  | _ => Fin.ofNat 2048 (own.foldl max 0 + 1)

/-- The bank swap completes and the snapshot is adopted (R20, R40, R176). A client already waiting is granted the store before the
requests that the adoption brings (log 10). The change of step is reported to the pair monitor, with
its takeover test (R179, R181), before the adoption to the cue scheduler and the timing unit (log 9). -/
def State.swapDone (s : State) : State :=
  if s.store.dropped then (s.release).wantWrite else
  let s := s.modStore fun st => { st.emptyShadow with live := st.shadow, summary := st.shadow.summary }
  let s := s.release
  let y := s.sync
  let held := s.apply.queue.countP QueueEntry.isOrdered
  let s := s.modApply fun a => { a with
    holding := false, serial := serialAfter s.straps.number s.store.live.items }
  let s := s.enterInStep (.adopted y.source held)
  let s := (s.modSched Scheduler.adopted).wantReads
  s.timingAdopted

/-- BANK_SWAP (R20). -/
def execBankSwap (s : State) : Outcome :=
  (if s.store.holder = some .bankSwap then s.swapDone else s).done

/-- REARM_READ (R96). -/
def execRearmRead (dt : Nat) (s : State) : Outcome :=
  (s.live dt fun s =>
    if s.store.holder = some .rearmRead then
      ((s.emit fun env m => m.rearm env s.store.live).release).wantReads
    else s).done

/-- TAKEOVER_READ (R191). -/
def execTakeoverRead (dt : Nat) (s : State) : Outcome :=
  (s.live dt fun s =>
    if s.store.holder = some .takeoverRead then
      ((s.emit fun env m => m.takeoverRead env s.store.live).release).wantReads
    else s).done

/-- PROJECTION_READ (R120). -/
def execProjectionRead (s : State) : Outcome :=
  (if s.store.holder = some .projectionRead then
     let again := s.timing.readAgain
     let s := (s.projectionDone).release
     if again then s.wantProjection else s
   else s).done

end Sys2Proof.Machine
end

