-- ==== Sys2Proof/Machine/Operands.lean ====
section
/-! DEFINITION. What the host writes, read into operands: request kinds and fields, the CONFIGURE fields and the EDIT a PROPOSE
becomes (R149, R200, R209). -/

namespace Sys2Proof.Machine

/-! ## Request kinds (R209) -/

def allReqKinds : List ReqKind :=
  [.configure, .restart, .propose, .standby, .take, .hold, .resume, .skip, .close, .yield, .relay, .readItem, .readOrder,
    .readPeer, .readTiming, .readArmed]

/-- The code of a request kind: 1 to 16 in this order (R209). -/
def ReqKind.code (k : ReqKind) : Nat := allReqKinds.idxOf k + 1

def ReqKind.ofCode (b : Byte) : Option ReqKind := if b = 0 then none else allReqKinds[b.toNat - 1]?

/-- The kind a request as written names in its first byte. -/
def reqKind (r : List Byte) : Option ReqKind :=
  match r with
  | b :: _ => ReqKind.ofCode b
  | [] => none

/-! ## Fields -/

/-- An item id as all the fields of a request. -/
def readId : List Byte → Option ItemId
  | [a, b] => some (b ++ a)
  | _ => none

/-- A TAKE's item id, lead and short flag (R201, R209): lead 1 to 250, in one byte (log 8). -/
def readTake : List Byte → Option (ItemId × Nat × Bool)
  | [a, b, l, f] => if 1 ≤ l.toNat ∧ l.toNat ≤ 250 then some (b ++ a, l.toNat, flagOf f) else none
  | _ => none

/-- The item id at the head of the fields, for REQ_REFUSED (R204). -/
def namedItem (fields : List Byte) : RefuseDetail := .item ((rd16 fields).map (·.1))

/-- A RELAY's destination and payload (R202). -/
def readRelay (own : StationNo) (fields : List Byte) : Option (Byte × List Byte) :=
  match fields with
  | [] => none
  | d :: data =>
    let dest := (decide (d.toNat < 32) && decide (d.toNat ≠ own.val)) || decide (64 ≤ d.toNat ∧ d.toNat ≤ 127) || decide (d = 255)
    if dest ∧ 1 ≤ data.length ∧ data.length ≤ 240 then some (d, data) else none

/-- A number 0 to 31 as the one field of a request (R203). -/
def readNumber : List Byte → Option (Fin 32)
  | [b] => if b.toNat < 32 then some (Fin.ofNat 32 b.toNat) else none
  | _ => none

/-! ## PROPOSE (R200, R209) -/

/-- Base version, tag, operation count and the operations cut; `none` where they cannot be read. -/
def readPropose (fields : List Byte) : Option (Word × Half × Byte × List (List Byte)) := do
  let (base, bs) ← rd32 fields
  let (tag, bs) ← rd16 bs
  let (count, bs) ← rd8 bs
  let ops ← cutOps false count.toNat bs
  some (base, tag, count, ops)

/-- The base version and tag for REQ_REFUSED (R204). -/
def proposeDetail (fields : List Byte) : RefuseDetail :=
  .propose ((rd32 fields).map (·.1)) (match rd32 fields with
    | some (_, bs) => (rd16 bs).map (·.1)
    | none => none)

/-- The id that the serial gives (R8, R40): station number × 2048 + serial. -/
def mintId (n : StationNo) (serial : Fin 2048) : ItemId := BitVec.ofNat 16 (n.val * 2048 + serial.val)

/-- The operations with the ids of the INSERT operations filled in, and the serial after them (R40, R200). -/
def fillIds (n : StationNo) (serial : Fin 2048) : List (List Byte) → List Byte × Fin 2048
  | [] => ([], serial)
  | op :: rest =>
    if op.head? = some 1 then
      let (bs, next) := fillIds n (serial + 1) rest
      (op.take 4 ++ le16 (mintId n serial) ++ op.drop 4 ++ bs, next)
    else
      let (bs, next) := fillIds n serial rest
      (op ++ bs, next)

/-- The EDIT a PROPOSE becomes, and the serial after it. -/
def buildEdit (n : StationNo) (serial : Fin 2048) (base : Word) (tag : Half) (count : Byte) (ops : List (List Byte)) :
    EditMsg × Fin 2048 :=
  let (bs, next) := fillIds n serial ops
  (⟨base, byteOf n.val, tag, count, bs⟩, next)

/-! ## CONFIGURE (R149, R209) -/

/-- The byte at a place of the CONFIGURE fields. -/
def fieldAt (f : List Byte) (i : Nat) : Byte := f.getD i 0

def configResource (f : List Byte) (r : Fin 16) : ResourceParams :=
  let b := fieldAt f (9 + 5 * r.val)
  { group := Fin.ofNat 4 (b.toNat % 4), autoRelease := b.getLsbD 2, mirror := b.getLsbD 3
    preroll := fieldAt f (10 + 5 * r.val), advance := (fieldAt f (11 + 5 * r.val)).toNat
    repeatGap := fieldAt f (12 + 5 * r.val), recovery := fieldAt f (13 + 5 * r.val) }

/-- The group membership: group g in bit g mod 8 of byte g ÷ 8 (R209). -/
def configGroups (f : List Byte) : BitVec 64 :=
  BitVec.ofNat 64 ((List.range 8).foldl (fun n i => n + (fieldAt f (1 + i)).toNat * 256 ^ i) 0)

/-- A light line or none, from a byte 0 to 7 or 255. -/
def lineOrNone (b : Byte) : Option (Fin 8) := if b.toNat < 8 then some (Fin.ofNat 8 b.toNat) else none

def badLine (b : Byte) : Bool := decide (8 ≤ b.toNat ∧ b ≠ 255)

/-- The first field out of range, in the order of R149. A resource byte whose bits 4 to 7 are not zero is refused as its resource
(log 48). -/
def configError (own : StationNo) (f : List Byte) : Option CfgField :=
  if f.length ≠ 112 then some .length
  else if 5 < (fieldAt f 0).toNat then some .rate
  else
    ((List.finRange 16).findSome? fun r =>
      if 16 ≤ (fieldAt f (9 + 5 * r.val)).toNat ∨ 15 < (fieldAt f (11 + 5 * r.val)).toNat then some (.resource r) else none)
    <|> ((List.finRange 8).findSome? fun l => if 250 < (fieldAt f (93 + l.val)).toNat then some (.warnLead l) else none)
    <|> ((List.finRange 4).findSome? fun i => if badLine (fieldAt f (101 + i.val)) then some (.readyMap i) else none)
    <|> ((List.finRange 2).findSome? fun l =>
      let t := (fieldAt f (105 + l.val)).toNat
      if t < 4 ∨ 24 < t then some (.pipTone l) else none)
    <|> (if badLine (fieldAt f 107) then some .wrap else none)
    <|> (match PairMode.ofCode (fieldAt f 110) with
      | none => some .pair
      | some .none => none
      | some _ => if 32 ≤ (fieldAt f 111).toNat ∨ (fieldAt f 111).toNat = own.val then some .pair else none)

/-- The configuration that valid fields give (R149); with pair mode NONE the partner is not kept. -/
def configOf (f : List Byte) : Cfg :=
  let mode := (PairMode.ofCode (fieldAt f 110)).getD .none
  { rate := Fin.ofNat 6 (fieldAt f 0).toNat, groups := configGroups f, resources := Vector.ofFn (configResource f)
    groupGaps := Vector.ofFn fun i => fieldAt f (89 + i.val), warnLeads := Vector.ofFn fun i => fieldAt f (93 + i.val)
    readyMap := Vector.ofFn fun i => lineOrNone (fieldAt f (101 + i.val))
    tones := Vector.ofFn fun i => (fieldAt f (105 + i.val)).toNat
    wrapLine := lineOrNone (fieldAt f 107), wrapLead := fieldAt f 109 ++ fieldAt f 108, pairMode := mode
    partner := if mode = .none then none else some (Fin.ofNat 32 (fieldAt f 111).toNat) }

end Sys2Proof.Machine
end

