-- ==== Sys2Proof/Machine/Notices.lean ====
section
/-! DEFINITION. Notices as the bytes a notice read returns (R197, R209): kind, then the fields in the order the rule that posts it
lists them; values that chapter 12 gives no code stand as `Config.enumCode` gives them (log 8). -/

namespace Sys2Proof.Machine

/-! ## Values without a code in chapter 12 -/

def LockCause.number : LockCause → Nat
  | .refLost => 0 | .refReturned => 1 | .markLoad => 2 | .acquired => 3 | .reacquire => 4 | .slip => 5 | .relocked => 6
  | .silence => 7 | .acquireTimeout => 8 | .holdoverExpired => 9 | .elected => 10 | .yielded => 11 | .ineligible => 12

def CancelCause.number : CancelCause → Nat
  | .itemEnd => 0 | .stoodDown => 1 | .skipped => 2 | .edited => 3 | .adoption => 4 | .prepareWithdrawn => 5

def MissReason.number : MissReason → Nat
  | .tableFull => 0 | .tooLate => 1

def ConflictReason.number : ConflictReason → Nat
  | .repeatGap => 0 | .span => 1 | .groupGap => 2 | .deferLimit => 3 | .wrapLine => 4 | .pipsOverlap => 5

def AbandonReason.number : AbandonReason → Nat
  | .heldOverflow => 0 | .order => 1 | .overrun => 2 | .badPart => 3 | .gapTimeout => 4 | .check => 5
  | .possibleLoss => 6 | .partLost => 7

def RoleCause.number : RoleCause → Nat
  | .partnerAbsent => 0 | .partnerUnfit => 1 | .preferred => 2 | .yieldReceived => 3 | .yielded => 4
  | .doubledUnfit => 5 | .doubledNumber => 6 | .muted => 7

def Result.number : Result → Nat
  | .applied => 0 | .stale => 1 | .noItem => 2 | .noAnchor => 3 | .duplicateId => 4 | .itemsFull => 5 | .cuesFull => 6
  | .itemCuesFull => 7 | .slotTaken => 8 | .noCue => 9 | .lockedItem => 10 | .badValue => 11 | .wrongState => 12
  | .tooEarly => 13 | .notOnAir => 14 | .alreadyHeld => 15 | .notHeld => 16 | .fixedItem => 17

def Sign.number : Sign → Nat
  | .over => 0 | .under => 1 | .absent => 2

def ReadyRefusal.number : ReadyRefusal → Nat
  | .standby => 0 | .muted => 1 | .queueFull => 2

def FailReason.number : FailReason → Nat
  | .attempts => 0 | .muted => 1 | .notInStep => 2

def RefuseReason.number : RefuseReason → Nat
  | .badRequest => 0 | .notInStart => 1 | .notConfigured => 2 | .muted => 3 | .notInStep => 4 | .notDirector => 5
  | .notLocked => 6 | .notPaired => 7 | .notActive => 8 | .queueFull => 9

def CfgField.number : CfgField → Nat
  | .length => 0 | .rate => 1 | .resource _ => 2 | .warnLead _ => 3 | .readyMap _ => 4 | .pipTone _ => 5 | .wrap => 6
  | .pair => 7

/-- The index of a CONFIGURE field, where R149 gives it one. -/
def CfgField.index : CfgField → Option Nat
  | .resource r => some r.val
  | .warnLead l => some l.val
  | .readyMap i => some i.val
  | .pipTone l => some l.val
  | .length | .rate | .wrap | .pair => none

def Light.number (l : Light) : Nat := l.rank

def EntryState.number : EntryState → Nat
  | .armed => 0 | .prepared => 1 | .running => 2 | .held => 3

/-- The flags of an entry as one number. -/
def EntryFlags.number (f : EntryFlags) : Nat :=
  f.late.toNat + 2 * f.joined.toNat + 4 * f.shortPreroll.toNat + 8 * f.deferred.toNat + 16 * f.trimmed.toNat
    + 32 * f.cut.toNat + 64 * f.shadow.toNat

/-- The causes of STEP, in the order of R177. -/
def StepCause.number : StepCause → Nat
  | .joinMatch _ _ => 0 | .joinMismatch _ _ => 1 | .founded => 2 | .queueFull => 3 | .gap _ _ => 4 | .possibleLoss => 5
  | .mismatch _ _ => 6 | .asked => 7 | .stream _ => 8 | .askFailed => 9 | .abandoned _ _ _ _ => 10 | .adopted _ _ => 11
  | .refounded => 12

/-- Enumerations by number, for `Config.enumCode` (log 8). -/
def codeLock (c : LockCause) : Byte := Config.enumCode 1 c.number
def codeCancel (c : CancelCause) : Byte := Config.enumCode 2 c.number
def codeMiss (c : MissReason) : Byte := Config.enumCode 3 c.number
def codeConflict (c : ConflictReason) : Byte := Config.enumCode 4 c.number
def codeStep (c : StepCause) : Byte := Config.enumCode 5 c.number
def codeAbandon (c : AbandonReason) : Byte := Config.enumCode 6 c.number
def codeRole (c : RoleCause) : Byte := Config.enumCode 7 c.number
def codeResult (c : Result) : Byte := Config.enumCode 8 c.number
def codeSign (c : Sign) : Byte := Config.enumCode 9 c.number
def codeReady (c : ReadyRefusal) : Byte := Config.enumCode 10 c.number
def codeFail (c : FailReason) : Byte := Config.enumCode 11 c.number
def codeRefuse (c : RefuseReason) : Byte := Config.enumCode 12 c.number
def codeField (c : CfgField) : Byte := Config.enumCode 13 c.number
def codeLight (c : Light) : Byte := Config.enumCode 14 c.number
def codeEntry (c : EntryState) : Byte := Config.enumCode 15 c.number
def codeFrameOrLive (byFrame : Bool) : Byte := Config.enumCode 16 byFrame.toNat
def codeFlags (f : EntryFlags) : Byte := Config.enumCode 17 f.number

/-! ## Pieces -/

/-- An optional field of `n` bytes: a presence byte, then the field, or zero bytes in its place (R209, and the opening of
chapter 12). A field without a width of its own, `n` being 0, leaves its mark alone (log 8). -/
def optBytes {α : Type} (n : Nat) (f : α → List Byte) : Option α → List Byte
  | some x => 1 :: f x
  | none => 0 :: List.replicate n 0

/-- A list: a count byte, then its members (R209). -/
def listBytes {α : Type} (f : α → List Byte) (l : List α) : List Byte := byteOf l.length :: l.flatMap f

def natByte (n : Nat) : List Byte := [byteOf n]
def nat16 (n : Nat) : List Byte := le16 (BitVec.ofNat 16 n)

/-- The code of a cue's kind (R208). -/
def CueBody.code : CueBody → Byte
  | .fire _ _ _ => 0 | .light _ _ => 1 | .pips _ _ => 2 | .marker => 3

def Summary.bytes (s : Summary) : List Byte := le32 s.version ++ le32 s.airCount ++ le32 s.check

def stationByte (n : StationNo) : List Byte := [byteOf n.val]

/-- A station number that the notice's rule does not make optional; zero where the model holds none. -/
def knownStation (n : Option StationNo) : List Byte := stationByte (n.getD 0)

/-- Contents of a roster entry where a PRESENCE has filled it (R155). -/
def knownContents (c : Option Presence) : List Byte := (c.map Presence.bytes).getD (List.replicate 23 0)

/-- Item id and slot. -/
def nameBytes (item : ItemId) (slot : Fin 16) : List Byte := le16 item ++ [byteOf slot.val]

def resourceBytes (r : Fin 16) : List Byte := [byteOf r.val]

def LineRecord.bytes (r : LineRecord) : List Byte :=
  [r.collisions, r.presenceGivenUp, r.markGivenUp, r.partGivenUp, r.presenceSkipped, r.markSkipped, r.fragments,
    r.headerFailures, r.messageFailures, r.destinationDiscards, r.formDiscards].flatMap nat16

/-- A roster entry (R153): presence, contents in the form of PRESENCE, last heard, silence count. Those of a cleared entry stand
as zero bytes behind one presence byte, flags included (log 8). -/
def PeerEntry.bytes (e : PeerEntry) : List Byte :=
  [boolByte e.present] ++ optBytes 23 Presence.bytes e.contents ++ optBytes 4 le32 e.lastHeard ++ natByte e.silence

/-- The basis of an entry (R73): state, start frame, taken-short flag, hold total and held-at, start and held-at optional. The state
is coded as in an item record (R208). -/
def ItemStatus.basisBytes (st : ItemStatus) : List Byte :=
  let (b, start, hold, heldAt, _, _, short) := st.fields
  [b &&& 7] ++ optBytes 4 le32 (if b.getLsbD 3 then some start else none) ++ [boolByte short] ++ le32 hold
    ++ optBytes 4 le32 (if b.getLsbD 4 then some heldAt else none)

/-- An entry of the armed table, with every field of R73. Slot and kind stand in the cue record alone, and the state and the flags,
which R203 names beside the fields of R73, stand once (log 8). -/
def Entry.bytes (e : Entry) : List Byte :=
  le16 e.item ++ e.cue.bytes ++ optBytes 2 le16 e.length ++ e.basis.basisBytes ++ optBytes 4 le32 e.planned ++ optBytes 4 le32 e.fire
    ++ natByte e.deferral ++ optBytes 4 le32 e.prepare ++ optBytes 4 le32 e.preparedAt ++ [boolByte e.notified]
    ++ optBytes 4 le32 e.endFrame ++ [codeEntry e.state] ++ optBytes 1 (fun s => [codeEntry s]) e.previous
    ++ [codeFlags e.flags] ++ optBytes 4 le32 e.joinOffset ++ [boolByte e.withheld]

/-- The frame an air message carries, where its kind has one. -/
def AirMsg.frame : AirMsg → Option Frame
  | .take _ f _ | .hold f | .resume f | .close f => some f
  | .standby _ | .skip _ => none

/-- The short flag of a TAKE. -/
def AirMsg.shortFlag : AirMsg → Option Bool
  | .take _ _ s => some s
  | .hold _ | .resume _ | .close _ | .standby _ | .skip _ => none

/-- An item and the carried frame, each where there is one (R49, R135). -/
def AirMsg.itemAndFrame (m : AirMsg) (item : Option ItemId) : List Byte := optBytes 2 le16 item ++ optBytes 4 le32 m.frame

def AirMsg.named : AirMsg → Option ItemId
  | .standby i | .take i _ _ | .skip i => some i
  | .hold _ | .resume _ | .close _ => none

/-- What SEND_FAILED carries of a message besides kind, destination and reason (R135). The fields that its kind has stand without a
presence byte, an air message's item and frame apart, and those of other kinds are not written (log 8). -/
def OutMsg.failBytes : OutMsg → List Byte
  | .air _ m => m.itemAndFrame m.named
  | .edit m => le32 m.base ++ le16 m.tag
  | .ready l _ => natByte l.val
  | .yield p => stationByte p
  | .mark _ | .presence _ | .ask | .relay _ _ | .part _ _ => []

/-- The further fields of a cause (R177); no byte for those that it does not have (log 8). -/
def StepCause.bytes : StepCause → List Byte
  | .joinMatch n s | .joinMismatch n s | .mismatch n s => stationByte n ++ s.bytes
  | .gap k c => natByte k.code ++ le32 c
  | .stream n => stationByte n
  | .abandoned _ src w n => knownStation src ++ natByte w ++ optBytes 1 natByte n
  | .adopted src h => knownStation src ++ natByte h
  | .founded | .queueFull | .possibleLoss | .asked | .askFailed | .refounded => []

/-- The reason of an ABANDONED step; none where the cause has none. R177 lists it twice: it stands once, before the summary (log 8). -/
def StepCause.reasonBytes : StepCause → List Byte
  | .abandoned r _ _ _ => [codeAbandon r]
  | _ => []

def TimedItem.onAirBytes (t : TimedItem) : List Byte :=
  le16 t.record.item ++ le32 t.record.start ++ le24 t.record.used ++ le32 t.record.holdTotal
    ++ [boolByte t.record.heldAt.isSome] ++ le32 t.elapsed

def TimedItem.endingBytes (t : TimedItem) : List Byte :=
  le16 t.record.item ++ le32 (t.record.endFrame.getD 0) ++ le32 t.elapsed

/-- The further fields of REQ_REFUSED (R204). Base, tag and item stand as optional fields, since a request may be too short to hold
them, and a read's argument as a counted list of its bytes (log 8). -/
def RefuseDetail.bytes : RefuseDetail → List Byte
  | .none => []
  | .propose b t => optBytes 4 le32 b ++ optBytes 2 le16 t
  | .configure f => optBytes 3 (fun f => [codeField f] ++ optBytes 1 natByte f.index) f
  | .item i => optBytes 2 le16 i
  | .argument bs => listBytes (fun b => [b]) bs

/-! ## Notices -/

/-- The code of a notice's kind (R209). -/
def Notice.code : Notice → Nat
  | .prepare .. => 1 | .fire .. => 2 | .ended .. => 3 | .free .. => 4 | .cancel .. => 5 | .missed .. => 6
  | .conflict .. => 7 | .lock .. => 8 | .step .. => 9 | .role .. => 10
  | .editDone .. => 32 | .airDone .. => 33 | .timing .. => 34 | .backtime .. => 35 | .peer .. => 36 | .ready .. => 37
  | .peerReady .. => 38 | .relayIn .. => 39 | .takeoverBlocked .. => 40 | .yieldFailed .. => 41 | .configDone .. => 42
  | .sendFailed .. => 43 | .reqRefused .. => 44 | .itemReply .. => 45 | .orderReply .. => 46 | .peerReply .. => 47
  | .ownReply .. => 47 | .timingReply .. => 48 | .armedReply .. => 49

/-- The fields of a notice (R209), in the forms of log 8 where chapter 12 leaves the form open: the parameter last in MISSED,
CONFLICT and FREE, FIRE's kind after its slot and its parameter before its flags, the last sent frame and its contents one optional
field, an empty list of inserted ids in the EDIT_DONE of a refused EDIT, and the short flag of AIR_DONE an optional field, absent in
the kinds other than TAKE. -/
def Notice.fields : Notice → List Byte
  | .prepare i sl r f p => nameBytes i sl ++ resourceBytes r ++ optBytes 4 le32 f ++ le16 p
  | .fire i sl r f len fl d j p =>
    nameBytes i sl ++ (if r.isSome then [0] else [3]) ++ optBytes 1 resourceBytes r ++ le32 f ++ optBytes 2 le16 len ++ le16 p
      ++ [codeFlags fl] ++ optBytes 1 natByte d ++ optBytes 4 le32 j
  | .ended i sl r f p cut => nameBytes i sl ++ resourceBytes r ++ le32 f ++ le16 p ++ [boolByte cut]
  | .free r i sl p => resourceBytes r ++ nameBytes i sl ++ le16 p
  | .cancel i c cause n r rel =>
    nameBytes i c.slot ++ [c.body.code] ++ optBytes 1 resourceBytes c.resource ++ le16 c.param ++ [codeCancel cause]
      ++ [boolByte n, boolByte r, boolByte rel]
  | .missed i c reason f l =>
    nameBytes i c.slot ++ [c.body.code] ++ [codeMiss reason] ++ optBytes 4 le32 f ++ optBytes 4 le32 l ++ le16 c.param
  | .conflict i c reason f rel =>
    nameBytes i c.slot ++ [c.body.code] ++ optBytes 1 resourceBytes c.resource ++ [codeConflict reason] ++ optBytes 4 le32 f
      ++ [boolByte rel] ++ le16 c.param
  | .lock n =>
    listBytes (fun c => [codeLock c]) (n.cause :: n.also.toList) ++ [n.lock.code, boolByte n.source, boolByte n.refLost]
      ++ optBytes 1 stationByte n.followed ++ le32 n.counter ++ le32 n.correction ++ nat16 n.slipCount
      ++ optBytes 8 (fun x => le32 x.1 ++ le32 x.2) n.lastSlip ++ optBytes 1 stationByte n.sender
  | .step new old c s => [new.code, old.code, codeStep c] ++ c.reasonBytes ++ s.bytes ++ c.bytes
  | .role new old c f p pp d =>
    [new.code, old.code, codeRole c] ++ le32 f ++ knownStation p ++ [boolByte pp] ++ optBytes 4 le32 d
  | .editDone p t r i v ins => [p] ++ le16 t ++ [codeResult r] ++ natByte i ++ le32 v ++ listBytes le16 ins
  | .airDone s m i r a =>
    stationByte s ++ natByte m.kind.code ++ m.itemAndFrame i ++ optBytes 1 (fun b => [boolByte b]) m.shortFlag
      ++ [codeResult r] ++ le32 a
  | .timing n =>
    le16 n.item ++ le32 n.start ++ le32 n.endFrame ++ le24 n.used ++ le32 n.actual ++ le32 n.holdTotal ++ le32 n.onAir
      ++ le32 n.difference ++ natByte (if n.byTake then Kind.take.code else Kind.close.code)
  | .backtime s o e h now byFrame =>
    [codeSign s] ++ optBytes 4 le32 o ++ le32 e ++ optBytes 4 le32 h ++ le32 now ++ [codeFrameOrLive byFrame]
  | .peer n pr f c => stationByte n ++ [boolByte pr] ++ le32 f ++ knownContents c
  | .ready i l it f why =>
    natByte i.val ++ natByte l.val ++ optBytes 2 le16 it ++ le32 f ++ [boolByte why.isNone] ++ optBytes 1 (fun w => [codeReady w]) why
  | .peerReady s l it => stationByte s ++ [l] ++ optBytes 2 le16 it
  | .relayIn s d p => stationByte s ++ [d] ++ listBytes (fun b => [b]) p
  | .takeoverBlocked c pp r a b m =>
    [codeRole c, boolByte pp] ++ optBytes 1 (fun r => [Role.code r]) r ++ [boolByte a, boolByte b, boolByte m]
  | .yieldFailed p pp r => knownStation p ++ [boolByte pp] ++ optBytes 1 (fun r => [Role.code r]) r
  | .configDone n t d m p r =>
    stationByte n ++ [boolByte t, boolByte d, m.code] ++ optBytes 1 stationByte p ++ [r.code]
  | .sendFailed m r => natByte m.kind.code ++ [m.dest, codeFail r] ++ m.failBytes
  | .reqRefused k r d => optBytes 1 (fun k => natByte (ReqKind.code k)) k ++ [codeRefuse r] ++ d.bytes
  | .itemReply s i => s.bytes ++ optBytes 0 Item.bytes i
  | .orderReply s ids => s.bytes ++ listBytes le16 ids
  | .peerReply e => e.bytes
  | .ownReply l c r => optBytes 27 (fun x => le32 x.1 ++ x.2.bytes) l ++ c.bytes ++ r.bytes
  | .timingReply r =>
    le32 r.now ++ optBytes 18 TimedItem.onAirBytes r.onAir ++ optBytes 10 TimedItem.endingBytes r.ending ++ [codeLight r.wrapClaim]
      ++ optBytes 2 le16 r.wrapItem ++ le32 r.projectedEnd ++ le32 (BitVec.ofNat 32 r.remaining) ++ optBytes 4 le32 r.hardOut
      ++ optBytes 4 le32 r.overUnder ++ [codeSign r.sign, boolByte r.readPending]
  | .armedReply r =>
    natByte r.count ++ optBytes 0 Entry.bytes r.entry ++ r.lights.toList.flatMap (fun x => [codeLight x.1, boolByte x.2])
      ++ r.pips.toList.flatMap (optBytes 3 fun k => nameBytes k.1 k.2)

/-- A notice as its transfer carries it after the length. -/
def Notice.bytes (n : Notice) : List Byte := byteOf n.code :: n.fields

/-- What a notice read carries: the length in two bytes, then the notice (R197, R209). -/
def Notice.transfer (n : Notice) : List Byte := nat16 n.bytes.length ++ n.bytes

end Sys2Proof.Machine
end

