-- ==== Sys2Proof/Machine/Events.lean ====
section
/-! DEFINITION. The commands of reset, the frame pulse and the blocks' timers, and of the cue line: one meaning for each. A command
whose condition does not hold changes nothing but the real time it brings (log 3). -/

namespace Sys2Proof.Machine

/-! ## Reset (R147) -/

/-- RESET_PIN (R147): every piece of state at its reset value. -/
def execResetPin (s : State) : Outcome := .next (s.resetNow .reset s.straps)

/-- RESET_END (R146, R147): the straps are sampled and the station is in START. -/
def execResetEnd (pins : Straps) (s : State) : Outcome := .next (s.resetNow .start pins)

/-! ## Frame pulses and the timebase (R52 to R54, R62) -/

/-- REFERENCE_PULSE (R52, R54). -/
def execReferencePulse (p : Pulse) (s : State) : Outcome :=
  (s.inRun p.dt fun s =>
    if s.tb.refLost then s.refReturned p
    else if s.early then s
    else (s.raise.watch).blocks p).done

/-- REF_LOST (R53). -/
def execRefLost (p : Pulse) (s : State) : Outcome :=
  (s.inRun p.dt fun s => if !s.tb.refLost && s.refOverdue then s.loseRef p else s).done

/-- FLYWHEEL_PULSE (R53). -/
def execFlywheelPulse (p : Pulse) (s : State) : Outcome :=
  (s.inRun p.dt fun s => if s.tb.refLost && s.flywheelDue then s.raise.blocks p else s).done

/-- SILENCE (R62). -/
def execSilence (s : State) : Outcome := (s.inRun 0 State.silenceExpire).done

/-- ACQUIRE_TIMEOUT (R62). -/
def execAcquireTimeout (s : State) : Outcome := (s.inRun 0 State.acquireExpire).done

/-- HOLDOVER_EXPIRED (R62). -/
def execHoldoverExpired (s : State) : Outcome := (s.inRun 0 State.holdoverExpire).done

/-! ## Cue scheduler (R77, R84, R90, R189) -/

/-- RECOVERY_ENDS (R77). -/
def execRecoveryEnds (r : Fin 16) (s : State) : Outcome :=
  .next (s.inRun 0 fun s => s.modSched fun sc =>
    { sc with resources := sc.resources.set r (sc.resources[r].recover s.now) })

/-- SCAN (R84). -/
def execScan (dt : Nat) (s : State) : Outcome := (s.inRun dt fun s => s.emit fun env m => m.scanIfUsable env).done

/-- ITEM_END_CANCEL (R90). -/
def execItemEndCancel (s : State) : Outcome := (s.inRun 0 fun s => s.emit fun env m => m.itemEndCancel env).done

/-- SHADOW_RECORDS_EXPIRE (R189). -/
def execShadowRecordsExpire (s : State) : Outcome := .next (s.inRun 0 fun s => s.emit fun env m => m.shadowExpire env)

/-! ## Output unit (R108) -/

/-- PIP_STARTS (R108). -/
def execPipStarts (dt : Nat) (line : Fin 2) (s : State) : Outcome :=
  .next (s.inRun dt fun s => if s.usable then s.modOut fun o => o.startPips line s.now s.clock else s)

/-- PIP_ENDS (R107, R108). -/
def execPipEnds (dt : Nat) (line : Fin 2) (s : State) : Outcome :=
  .next (s.inRun dt fun s => s.modOut fun o => o.modPip line (Playing.endPip s.clock))

/-! ## Timing unit (R118) -/

/-- WARN_POINT (R118): the wrap claim becomes FLASH, where it is due. -/
def execWarnPoint (s : State) : Outcome :=
  (s.inRun 0 fun s => if s.reclaim.timing.wrapClaim = .flash then s.reclaim else s).done

/-- EXPIRY_POINT (R118): the wrap claim becomes ON, where it is due. -/
def execExpiryPoint (s : State) : Outcome :=
  (s.inRun 0 fun s => if s.reclaim.timing.wrapClaim = .on then s.reclaim else s).done

/-- ENDING_RECORD_DROPPED (R118). -/
def execEndingRecordDropped (s : State) : Outcome :=
  (s.inRun 0 fun s =>
    if s.timing.dropEnding s.now = s.timing then s else (s.modTiming (·.dropEnding s.now)).reclaim).done

/-! ## Roster, sync and pair timers -/

/-- PEER_ABSENT (R155). -/
def execPeerAbsent (n : StationNo) (s : State) : Outcome := (s.inRun 0 (·.peerExpire n)).done

/-- FOUNDED (R151). -/
def execFounded (s : State) : Outcome := (s.inRun 0 State.found).done

/-- ASK_WAIT_EXPIRES (R163). -/
def execAskWaitExpires (s : State) : Outcome := (s.inRun 0 State.askFirst).done

/-- ASK_RETRY_EXPIRES (R164). -/
def execAskRetryExpires (s : State) : Outcome := (s.inRun 0 State.askRetryExpire).done

/-- RESPONSE_WAIT_EXPIRES (R166). -/
def execResponseWaitExpires (s : State) : Outcome := .next (s.inRun 0 State.responseExpire)

/-- GAP_TIMEOUT (R173). -/
def execGapTimeout (s : State) : Outcome := (s.inRun 0 State.gapExpire).done

/-- YIELD_FAILED (R184). -/
def execYieldFailed (s : State) : Outcome := .next (s.inRun 0 State.yieldExpire)

/-! ## The cue line, sending (R56, R132 to R136) -/

/-- MARK_CAPTURE (R56, R138): a start delimiter is detected. -/
def execMarkCapture (dt : Nat) (s : State) : Outcome :=
  .next (s.live dt fun s =>
    if s.isRun then
      (s.modTb fun t => { t with capture := some t.counter }).modLine fun l =>
        { l with rx := if l.transmitting then .own else .inRun }
    else s.modLine fun l => { l with rx := .beforeRun })

/-- TRANSMIT_ATTEMPT (R132). -/
def execTransmitAttempt (dt idle : Nat) (s : State) : Outcome := .next (s.inRun dt (·.tryAttempt idle))

/-- COLLISION (R133): from the difference, found after `dt`, to the end of the jam. -/
def execCollision (dt : Nat) (s : State) : Outcome :=
  (s.inRun dt fun s =>
    if s.line.transmitting = true ∧ s.clock - s.line.attemptAt ≤ contentionWindow then (s.elapse jamTime).collide
    else s).done

/-- BACKOFF_EXPIRES (R134). -/
def execBackoffExpires (dt idle : Nat) (s : State) : Outcome :=
  .next (s.inRun dt fun s =>
    if s.backoffOver then (s.modLine fun l => { l with backoff := none }).tryAttempt idle else s)

/-- TRANSMISSION_COMPLETE (R136). -/
def execTransmissionComplete (dt : Nat) (s : State) : Outcome :=
  (s.inRun dt fun s => if s.line.transmitting then s.complete else s).done

/-! ## The cue line, receiving (R139 to R141) -/

/-- RECEIVE_ORDERED_MESSAGE (R23). -/
def execReceiveOrderedMessage (dt : Nat) (rx : Reception) (s : State) : Outcome :=
  (s.receive dt rx fun n _ m => match m with
    | .ordered o => some (·.takeOrdered n o)
    | _ => none).done

/-- RECEIVE_MARK (R57). -/
def execReceiveMark (dt : Nat) (rx : Reception) (s : State) : Outcome :=
  (s.receive dt rx fun n _ m => match m with
    | .mark f => some (State.unlessOwn n (·.markHeard n f))
    | _ => none).done

/-- RECEIVE_PRESENCE (R154). -/
def execReceivePresence (dt : Nat) (rx : Reception) (s : State) : Outcome :=
  (s.receive dt rx fun n _ m => match m with
    | .presence p => some (State.unlessOwn n (·.presenceHeard n p))
    | _ => none).done

/-- RECEIVE_ASK (R165). -/
def execReceiveAsk (dt : Nat) (rx : Reception) (s : State) : Outcome :=
  (s.receive dt rx fun n _ m => match m with
    | .ask => some (·.askHeard n)
    | _ => none).done

/-- RECEIVE_PART_OPENING (R171). -/
def execReceivePartOpening (dt : Nat) (rx : Reception) (s : State) : Outcome :=
  (s.receive dt rx fun n _ m => match m with
    | .part k _ => if k = 0 then some (·.openingHeard n) else none
    | _ => none).done

/-- RECEIVE_PART (R172). -/
def execReceivePart (dt : Nat) (rx : Reception) (s : State) : Outcome :=
  (s.receive dt rx fun n _ m => match m with
    | .part k c => if k = 0 then none else some (·.partHeard n k c)
    | _ => none).done

/-- RECEIVE_READY (R105). -/
def execReceiveReady (dt : Nat) (rx : Reception) (s : State) : Outcome :=
  (s.receive dt rx fun n _ m => match m with
    | .ready l i => some (·.post (.peerReady n l i))
    | _ => none).done

/-- RECEIVE_RELAY (R141). -/
def execReceiveRelay (dt : Nat) (rx : Reception) (s : State) : Outcome :=
  (s.receive dt rx fun n d m => match m with
    | .relay p => some (·.post (.relayIn n d p))
    | _ => none).done

/-- RECEIVE_YIELD (R185). -/
def execReceiveYield (dt : Nat) (rx : Reception) (s : State) : Outcome :=
  (s.receive dt rx fun n _ m => match m with
    | .yield => some (State.unlessOwn n (·.yieldHeard n))
    | _ => none).done

/-- BAD_RECEPTION (R138 to R140). -/
def execBadReception (dt : Nat) (rx : Reception) (s : State) : Outcome := (s.reception dt (·.reject rx)).done

end Sys2Proof.Machine
end

