-- ==== Sys2Proof/Machine/Requests.lean ====
section
/-! DEFINITION. The host port: transfers (R193 to R199) and the requests as they are handled (R195, R200 to R204), one meaning for
each. -/

namespace Sys2Proof.Machine

/-! ## Transfers -/

/-- Places of the request queue (R194). -/
def requestPlaces : Nat := 4

/-- The location code of the transfer in progress (R193, R209), where it is not ignored. -/
def Transfer.code : Transfer → Option Byte
  | .requestWrite => some 1
  | .notice _ | .carried => some 2
  | .portControl => some 4
  | .ignored => none

/-- A transfer at one moment (R193), or as much of one as has an effect. None comes within another (log 24), and while the reset pin
is asserted it is ignored (R147). -/
def State.wholeTransfer (s : State) (f : Port → Port) : State :=
  s.modPort fun p => if s.run = .reset ∨ p.transfer.isSome then p else f p

/-- A transfer begins (R193). None begins within another (log 24). While the reset pin is asserted it is ignored to its end (R147,
R206). -/
def State.beginTransfer (s : State) (f : Port → Port) : State :=
  s.modPort fun p =>
    if p.transfer.isSome then p
    else if s.run = .reset then { p with transfer := some .ignored }
    else f p

/-- The transfer in progress ends, where it is ignored or has this location code (R193, R206). -/
def State.endTransfer (s : State) (code : Byte) (f : Port → Port) : State :=
  s.modPort fun p => match p.transfer with
    | none => p
    | some t =>
      if s.run = .reset ∨ t = .ignored then { p with transfer := none }
      else if t.code = some code then f { p with transfer := none }
      else p

/-- A request as written joins the queue (R194); one cut short or without a place is lost. Bytes beyond its announced length are
dropped, of which R194 says nothing (log 36). -/
def Port.takeRequest (length : Byte) (bytes : List Byte) (p : Port) : Port :=
  if bytes.length < length.toNat ∨ requestPlaces ≤ p.requests.length then { p with requestLost := true }
  else { p with requests := p.requests ++ [bytes.take length.toNat] }

/-- REQUEST_WRITE (R194): the request is taken at the end of its transfer. -/
def execRequestWrite (length : WriteStretch) (bytes : List Byte) (s : State) : Outcome :=
  .next (match length with
    | .whole n => s.wholeTransfer (Port.takeRequest n bytes)
    | .begins => s.beginTransfer fun p => { p with transfer := some .requestWrite }
    | .ends n => s.endTransfer 1 (Port.takeRequest n bytes))

/-- A notice read begins (R197): the head notice of the URGENT queue, else of the ROUTINE queue, else a length of 0. -/
def Port.beginRead (p : Port) : Port :=
  match p.urgent, p.routine with
  | n :: _, _ => { p with out := .notice n n.transfer, transfer := some (.notice true) }
  | [], n :: _ => { p with out := .notice n n.transfer, transfer := some (.notice false) }
  | [], [] => { p with out := .empty (nat16 0), transfer := some .carried }

/-- The last byte of the notice has been carried, and it leaves its queue (R197). What is posted meanwhile joins the tail, so it
still stands at the head. -/
def Port.lastByte (p : Port) : Port :=
  match p.transfer with
  | some (.notice true) => { p with urgent := p.urgent.tail, transfer := some .carried }
  | some (.notice false) => { p with routine := p.routine.tail, transfer := some .carried }
  | some .requestWrite | some .portControl | some .carried | some .ignored | none => p

/-- A notice read at one moment (R197). -/
def Port.readNotice (toLastByte : Bool) (p : Port) : Port :=
  { if toLastByte then p.beginRead.lastByte else p.beginRead with transfer := none }

/-- NOTICE_READ (R197). One that ends before its last byte leaves the notice where it is. -/
def execNoticeRead (part : ReadStretch) (s : State) : Outcome :=
  .next (match part with
    | .whole toLastByte => s.wholeTransfer (Port.readNotice toLastByte)
    | .begins => s.beginTransfer Port.beginRead
    | .lastByte => s.modPort Port.lastByte
    | .ends => s.endTransfer 2 id)

/-- Bits of a byte, the first the least significant. -/
def bitsByte (bs : List Bool) : Byte := byteOf (bs.foldr (fun b n => b.toNat + 2 * n) 0)

/-- Free places of a transmit queue (R130). -/
def Line.freePlaces (l : Line) (c : TxClass) : Nat := c.places - (l.queue c).length

/-- The port status record (R198, R209), 24 bytes. -/
def State.statusBytes (s : State) : List Byte :=
  let p := s.port
  let number := s.straps.number.val
  [byteOf (requestPlaces - p.requests.length), byteOf p.urgent.length, byteOf p.routine.length,
    bitsByte [p.requestLost, p.urgentLost, p.routineLost, p.urgentEnable, p.routineEnable, s.isRun, s.line.muted, s.tb.source],
    byteOf (number + (if s.straps.timeCapable then 32 else 0) + (if s.straps.directorCapable then 64 else 0)),
    s.sync.step.code,
    byteOf (s.tb.lock.code.toNat + (if s.tb.refLost then 4 else 0)),
    s.pair.role.code,
    bitsByte [!s.apply.queue.isEmpty, decide (s.store.use = .copying), decide (s.store.use = .frozen),
      decide (s.store.use = .assembling)]]
    ++ s.store.summary.bytes
    ++ [byteOf (s.line.freePlaces .urgent), byteOf (s.line.freePlaces .routine), byteOf (s.line.freePlaces .bulk)]

/-- PORT_STATUS_READ (R198): at its beginning, where it samples and clears the lost flags it shows set. -/
def execPortStatusRead (s : State) : Outcome :=
  .next (s.wholeTransfer fun p => { p with
    out := .status s.statusBytes, requestLost := false, urgentLost := false, routineLost := false })

/-- The enables take their bits (R199). Bits 2 to 7 of the byte, which the spec does not name, are ignored (log 36). -/
def Port.control (enables : Byte) (p : Port) : Port :=
  { p with urgentEnable := enables.getLsbD 0, routineEnable := enables.getLsbD 1 }

/-- PORT_CONTROL_WRITE (R199), taken at the end of its transfer (log 36). -/
def execPortControlWrite (enables : WriteStretch) (s : State) : Outcome :=
  .next (match enables with
    | .whole b => s.wholeTransfer (Port.control b)
    | .begins => s.beginTransfer fun p => { p with transfer := some .portControl }
    | .ends b => s.endTransfer 4 (Port.control b))

/-- INVALID_TRANSFER (R193): ignored. Where a transfer of this first byte has begun it is the end of that one, without effect.
A notice read that has carried its last byte and then carries data against its direction keeps the removal of R197 (log 36). -/
def execInvalidTransfer (first : Byte) (_rest : List Byte) (s : State) : Outcome := .next (s.endTransfer first id)

/-! ## Handling (R195, R204) -/

/-- The head request leaves the queue. -/
def State.requestDone (s : State) : State := s.modPort fun p => { p with requests := p.requests.tail, inHand := false }

/-- A request is refused (R204). -/
def State.refuse (s : State) (k : Option ReqKind) (r : RefuseReason) (d : RefuseDetail) : State :=
  (s.requestDone).post (.reqRefused k r d)

/-- The head request is handled where it is of kind `k` and none is in hand (R195). -/
def State.handle (s : State) (k : ReqKind) (f : List Byte → State → State) : State :=
  if s.run = .reset ∨ s.port.inHand = true then s else
  match s.port.requests with
  | r :: _ => if reqKind r = some k then f r.tail s else s
  | [] => s

/-- The reason of the first check that fails. -/
def firstFailing : List (Bool × RefuseReason) → Option RefuseReason
  | [] => none
  | (ok, r) :: rest => if ok then firstFailing rest else some r

/-- The checks made before the form of an air request (R204). -/
def State.airChecks (s : State) : List (Bool × RefuseReason) :=
  [(s.isRun, .notConfigured), (s.straps.directorCapable, .notDirector), (!s.line.muted, .muted),
    (decide (s.sync.step = .inStep), .notInStep)]

/-- An accepted request's message is offered (R195, R200 to R202). -/
def State.offer (s : State) (k : ReqKind) (d : RefuseDetail) (m : OutMsg) : State :=
  if s.canOffer m then (s.enqueue m).requestDone else s.refuse (some k) .queueFull d

/-- An air request (R201, R204): `m` is its message, where its fields can be read. The air count is stamped at each attempt. -/
def State.airRequest (s : State) (k : ReqKind) (d : RefuseDetail) (more : List (Bool × RefuseReason)) (m : Option AirMsg) :
    State :=
  match firstFailing (s.airChecks ++ [(m.isSome, .badRequest)] ++ more), m with
  | some r, _ => s.refuse (some k) r d
  | none, some a => s.offer k d (.air 0 a)
  | none, none => s.refuse (some k) .badRequest d

/-- STANDBY_REQUEST (R201). -/
def execStandbyRequest (s : State) : Outcome :=
  .next (s.handle .standby fun f s => s.airRequest .standby (namedItem f) [] ((readId f).map .standby))

/-- TAKE_REQUEST (R201): F is the counter plus the lead. -/
def execTakeRequest (s : State) : Outcome :=
  .next (s.handle .take fun f s => s.airRequest .take (namedItem f) [(s.usable, .notLocked)]
    ((readTake f).map fun x => .take x.1 (s.now + frames x.2.1) x.2.2))

/-- HOLD_REQUEST (R201). -/
def execHoldRequest (s : State) : Outcome :=
  .next (s.handle .hold fun f s => s.airRequest .hold .none [(s.usable, .notLocked)]
    (if f.isEmpty then some (.hold s.now) else none))

/-- RESUME_REQUEST (R201). -/
def execResumeRequest (s : State) : Outcome :=
  .next (s.handle .resume fun f s => s.airRequest .resume .none [] (if f.isEmpty then some (.resume s.now) else none))

/-- SKIP_REQUEST (R201). -/
def execSkipRequest (s : State) : Outcome :=
  .next (s.handle .skip fun f s => s.airRequest .skip (namedItem f) [] ((readId f).map .skip))

/-- CLOSE_REQUEST (R201). -/
def execCloseRequest (s : State) : Outcome :=
  .next (s.handle .close fun f s => s.airRequest .close .none [] (if f.isEmpty then some (.close s.now) else none))

/-- A PROPOSE that passes its checks so far: form, length and base version (R200), then the offer. -/
def State.propose (s : State) (f : List Byte) : State :=
  let d := proposeDetail f
  match readPropose f with
  | none => s.refuse (some .propose) .badRequest d
  | some (base, tag, count, ops) =>
    let (m, next) := buildEdit s.straps.number s.apply.serial base tag count ops
    if 255 < m.bytes.length ∨ s.store.summary.version.toNat < base.toNat then s.refuse (some .propose) .badRequest d
    else (s.modApply fun a => { a with serial := next }).offer .propose d (.edit m)

/-- PROPOSE (R200). -/
def execPropose (s : State) : Outcome :=
  .next (s.handle .propose fun f s =>
    match firstFailing [(s.isRun, .notConfigured), (!s.line.muted, .muted), (decide (s.sync.step = .inStep), .notInStep)] with
    | some r => s.refuse (some .propose) r (proposeDetail f)
    | none => s.propose f)

/-- A YIELD that passes its checks is offered to the partner, and the yield state becomes QUEUED (R184). -/
def State.yieldOffer (s : State) : State :=
  match s.config.partner with
  | none => s.refuse (some .yield) .notPaired .none
  | some p =>
    if s.canOffer (.yield p) then
      ((s.enqueue (.yield p)).modPair fun q => { q with yield := .queued }).requestDone
    else s.refuse (some .yield) .queueFull .none

/-- YIELD_REQUEST (R184, R202). -/
def execYieldRequest (s : State) : Outcome :=
  .next (s.handle .yield fun f s =>
    match firstFailing [(s.isRun, .notConfigured), (s.isPaired, .notPaired), (!s.line.muted, .muted),
        (decide (s.pair.role = .active), .notActive), (f.isEmpty && decide (s.pair.yield = .none), .badRequest)] with
    | some r => s.refuse (some .yield) r .none
    | none => s.yieldOffer)

/-- RELAY_REQUEST (R202). -/
def execRelayRequest (s : State) : Outcome :=
  .next (s.handle .relay fun f s =>
    match firstFailing [(s.isRun, .notConfigured), (!s.line.muted, .muted)], readRelay s.straps.number f with
    | some r, _ => s.refuse (some .relay) r .none
    | none, some (d, data) => s.offer .relay .none (.relay d data)
    | none, none => s.refuse (some .relay) .badRequest .none)

/-! ## Reads (R203) -/

/-- A read request (R204): refused in START, or where its fields do not fit. -/
def State.readRequest {α : Type} (s : State) (k : ReqKind) (f : List Byte) (arg : Option α) (act : α → State) : State :=
  if !s.isRun then s.refuse (some k) .notConfigured (.argument f)
  else match arg with
    | none => s.refuse (some k) .badRequest (.argument f)
    | some a => act a

def noFields (f : List Byte) : Option Unit := if f.isEmpty then some () else none

/-- A request that waits in hand for the store (R195). -/
def State.storeRead (s : State) (op : StoreOp) : State := (s.modPort fun p => { p with inHand := true }).request op

/-- READ_ITEM (R203). -/
def execReadItem (s : State) : Outcome :=
  .next (s.handle .readItem fun f s => s.readRequest .readItem f (readId f) fun id => s.storeRead (.itemRead id))

/-- READ_ORDER (R203). -/
def execReadOrder (s : State) : Outcome :=
  .next (s.handle .readOrder fun f s => s.readRequest .readOrder f (noFields f) fun _ => s.storeRead .orderRead)

/-- ITEM_READ_COMPLETE (R203). -/
def execItemReadComplete (s : State) : Outcome :=
  .next (match s.store.holder with
    | some (.itemRead id) =>
      ((s.post (.itemReply s.store.live.summary (s.store.live.item id))).requestDone).release
    | _ => s)

/-- ORDER_READ_COMPLETE (R203). -/
def execOrderReadComplete (s : State) : Outcome :=
  .next (if s.store.holder = some .orderRead then
    ((s.post (.orderReply s.store.live.summary (s.store.live.items.map (·.id)))).requestDone).release
  else s)

/-- The reply to READ_PEER (R156, R203). -/
def State.peerReply (s : State) (n : StationNo) : Notice :=
  if n = s.straps.number then .ownReply s.roster.lastSent s.presence s.line.record else .peerReply (s.peer n)

/-- READ_PEER (R203). -/
def execReadPeer (s : State) : Outcome :=
  .next (s.handle .readPeer fun f s => s.readRequest .readPeer f (readNumber f) fun n =>
    (s.post (s.peerReply n)).requestDone)

/-- READ_TIMING (R123). -/
def execReadTiming (s : State) : Outcome :=
  .next (s.handle .readTiming fun f s => s.readRequest .readTiming f (noFields f) fun _ =>
    (s.post (.timingReply s.timingReply)).requestDone)

/-- The reply to READ_ARMED (R203). -/
def State.armedReply (s : State) (index : Nat) : ArmedReply :=
  { count := s.sched.armed.length, entry := s.sched.armed[index]?
    lights := Vector.ofFn fun l => (s.out.lights[l], s.lightPin l)
    pips := s.out.pips.map (·.map fun p => (p.item, p.slot)) }

/-- READ_ARMED (R203). -/
def execReadArmed (s : State) : Outcome :=
  .next (s.handle .readArmed fun f s => s.readRequest .readArmed f (readNumber f) fun i =>
    (s.post (.armedReply (s.armedReply i.val))).requestDone)

/-- UNKNOWN_REQUEST (R194, R204): a request without a first byte, or whose first byte names no kind. -/
def execUnknownRequest (s : State) : Outcome :=
  .next (if s.run = .reset ∨ s.port.inHand = true then s else
    match s.port.requests with
    | r :: _ => if reqKind r = none then s.refuse none .badRequest .none else s
    | [] => s)

/-! ## CONFIGURE and RESTART (R147, R150) -/

/-- A configuration accepted whole (R150). -/
def State.configure (s : State) (c : Cfg) : State :=
  let role := if c.pairMode = .none then Role.solo else Role.standby
  let s := ({ s with cfg := some c, run := .run } : State).watch.modPair fun p => { p with role := role }
  (s.requestDone).post
    (.configDone s.straps.number s.straps.timeCapable s.straps.directorCapable c.pairMode s.pairNumber role)

/-- CONFIGURE (R149, R150). -/
def execConfigure (dt : Nat) (s : State) : Outcome :=
  .next (s.live dt fun s => s.handle .configure fun f s =>
    if s.isRun then s.refuse (some .configure) .notInStart (.configure none)
    else match configError s.straps.number f with
      | some e => s.refuse (some .configure) .badRequest (.configure (some e))
      | none => s.configure (configOf f))

/-- RESTART (R147): a station reset, with the straps sampled anew. One that has fields is refused, by R209 (log 27). -/
def execRestart (pins : Straps) (s : State) : Outcome :=
  .next (s.handle .restart fun f s =>
    if f.isEmpty then s.resetNow .start pins else s.refuse (some .restart) .badRequest .none)

end Sys2Proof.Machine
end

