-- ==== Sys2Proof/Machine/Dispatch.lean ====
section
/-! DEFINITION. Every command to its meaning. -/

namespace Sys2Proof.Machine

def exec (i : Instr) (s : State) : Host.Outcome State Fault Refusal :=
  match i with
  | .resetPin => Sys2Proof.Machine.execResetPin s
  | .resetEnd pins => Sys2Proof.Machine.execResetEnd pins s
  | .referencePulse p => Sys2Proof.Machine.execReferencePulse p s
  | .refLost p => Sys2Proof.Machine.execRefLost p s
  | .flywheelPulse p => Sys2Proof.Machine.execFlywheelPulse p s
  | .silence => Sys2Proof.Machine.execSilence s
  | .acquireTimeout => Sys2Proof.Machine.execAcquireTimeout s
  | .holdoverExpired => Sys2Proof.Machine.execHoldoverExpired s
  | .recoveryEnds resource => Sys2Proof.Machine.execRecoveryEnds resource s
  | .scan dt => Sys2Proof.Machine.execScan dt s
  | .itemEndCancel => Sys2Proof.Machine.execItemEndCancel s
  | .shadowRecordsExpire => Sys2Proof.Machine.execShadowRecordsExpire s
  | .pipStarts dt line => Sys2Proof.Machine.execPipStarts dt line s
  | .pipEnds dt line => Sys2Proof.Machine.execPipEnds dt line s
  | .warnPoint => Sys2Proof.Machine.execWarnPoint s
  | .expiryPoint => Sys2Proof.Machine.execExpiryPoint s
  | .endingRecordDropped => Sys2Proof.Machine.execEndingRecordDropped s
  | .peerAbsent peer => Sys2Proof.Machine.execPeerAbsent peer s
  | .founded => Sys2Proof.Machine.execFounded s
  | .askWaitExpires => Sys2Proof.Machine.execAskWaitExpires s
  | .askRetryExpires => Sys2Proof.Machine.execAskRetryExpires s
  | .responseWaitExpires => Sys2Proof.Machine.execResponseWaitExpires s
  | .gapTimeout => Sys2Proof.Machine.execGapTimeout s
  | .yieldFailed => Sys2Proof.Machine.execYieldFailed s
  | .markCapture dt => Sys2Proof.Machine.execMarkCapture dt s
  | .transmitAttempt dt idle => Sys2Proof.Machine.execTransmitAttempt dt idle s
  | .collision dt => Sys2Proof.Machine.execCollision dt s
  | .backoffExpires dt idle => Sys2Proof.Machine.execBackoffExpires dt idle s
  | .transmissionComplete dt => Sys2Proof.Machine.execTransmissionComplete dt s
  | .receiveOrderedMessage dt rx => Sys2Proof.Machine.execReceiveOrderedMessage dt rx s
  | .receiveMark dt rx => Sys2Proof.Machine.execReceiveMark dt rx s
  | .receivePresence dt rx => Sys2Proof.Machine.execReceivePresence dt rx s
  | .receiveAsk dt rx => Sys2Proof.Machine.execReceiveAsk dt rx s
  | .receivePartOpening dt rx => Sys2Proof.Machine.execReceivePartOpening dt rx s
  | .receivePart dt rx => Sys2Proof.Machine.execReceivePart dt rx s
  | .receiveReady dt rx => Sys2Proof.Machine.execReceiveReady dt rx s
  | .receiveRelay dt rx => Sys2Proof.Machine.execReceiveRelay dt rx s
  | .receiveYield dt rx => Sys2Proof.Machine.execReceiveYield dt rx s
  | .badReception dt rx => Sys2Proof.Machine.execBadReception dt rx s
  | .storeGrant => Sys2Proof.Machine.execStoreGrant s
  | .insert => Sys2Proof.Machine.execInsert s
  | .delete => Sys2Proof.Machine.execDelete s
  | .move => Sys2Proof.Machine.execMove s
  | .amend => Sys2Proof.Machine.execAmend s
  | .addCue => Sys2Proof.Machine.execAddCue s
  | .dropCue => Sys2Proof.Machine.execDropCue s
  | .setOut => Sys2Proof.Machine.execSetOut s
  | .revive => Sys2Proof.Machine.execRevive s
  | .standby dt => Sys2Proof.Machine.execStandby dt s
  | .take dt => Sys2Proof.Machine.execTake dt s
  | .hold dt => Sys2Proof.Machine.execHold dt s
  | .resume dt => Sys2Proof.Machine.execResume dt s
  | .skip dt => Sys2Proof.Machine.execSkip dt s
  | .close dt => Sys2Proof.Machine.execClose dt s
  | .freezeCopy => Sys2Proof.Machine.execFreezeCopy s
  | .partRead => Sys2Proof.Machine.execPartRead s
  | .partWrite => Sys2Proof.Machine.execPartWrite s
  | .shadowCheck => Sys2Proof.Machine.execShadowCheck s
  | .bankSwap => Sys2Proof.Machine.execBankSwap s
  | .rearmRead dt => Sys2Proof.Machine.execRearmRead dt s
  | .takeoverRead dt => Sys2Proof.Machine.execTakeoverRead dt s
  | .projectionRead => Sys2Proof.Machine.execProjectionRead s
  | .itemReadComplete => Sys2Proof.Machine.execItemReadComplete s
  | .orderReadComplete => Sys2Proof.Machine.execOrderReadComplete s
  | .requestWrite length bytes => Sys2Proof.Machine.execRequestWrite length bytes s
  | .noticeRead part => Sys2Proof.Machine.execNoticeRead part s
  | .portStatusRead => Sys2Proof.Machine.execPortStatusRead s
  | .portControlWrite enables => Sys2Proof.Machine.execPortControlWrite enables s
  | .invalidTransfer first rest => Sys2Proof.Machine.execInvalidTransfer first rest s
  | .configure dt => Sys2Proof.Machine.execConfigure dt s
  | .restart pins => Sys2Proof.Machine.execRestart pins s
  | .propose => Sys2Proof.Machine.execPropose s
  | .standbyRequest => Sys2Proof.Machine.execStandbyRequest s
  | .takeRequest => Sys2Proof.Machine.execTakeRequest s
  | .holdRequest => Sys2Proof.Machine.execHoldRequest s
  | .resumeRequest => Sys2Proof.Machine.execResumeRequest s
  | .skipRequest => Sys2Proof.Machine.execSkipRequest s
  | .closeRequest => Sys2Proof.Machine.execCloseRequest s
  | .yieldRequest => Sys2Proof.Machine.execYieldRequest s
  | .relayRequest => Sys2Proof.Machine.execRelayRequest s
  | .readItem => Sys2Proof.Machine.execReadItem s
  | .readOrder => Sys2Proof.Machine.execReadOrder s
  | .readPeer => Sys2Proof.Machine.execReadPeer s
  | .readTiming => Sys2Proof.Machine.execReadTiming s
  | .readArmed => Sys2Proof.Machine.execReadArmed s
  | .unknownRequest => Sys2Proof.Machine.execUnknownRequest s

end Sys2Proof.Machine
end

