-- ==== Sys2Proof/Safety.lean ====
section
/-! DEFINITION. What counts as a safe run: the laws that the spec sets for a station, each as a condition on one state. -/

namespace Sys2Proof.Machine

/-- A command is carried out: the answer is a next state. -/
def Runs (o : Outcome) : Prop := ∃ t, o = .next t

/-! ## Frames -/

/-- The parts of a station's state: one for each field, and within the store LIVE with its summary copy, within the timebase
the frame counter. -/
inductive Part
  | run | straps | cfg | clock | store | live | apply | tb | counter | sched | out | timing | line | roster | sync | pair
  | port | pending
  deriving DecidableEq, Repr

/-- Two states hold the same in one part. -/
def Agree (p : Part) (s t : State) : Prop :=
  match p with
  | .run => t.run = s.run
  | .straps => t.straps = s.straps
  | .cfg => t.cfg = s.cfg
  | .clock => t.clock = s.clock
  | .store => t.store = s.store
  | .live => t.store.live = s.store.live ∧ t.store.summary = s.store.summary
  | .apply => t.apply = s.apply
  | .tb => t.tb = s.tb
  | .counter => t.tb.counter = s.tb.counter
  | .sched => t.sched = s.sched
  | .out => t.out = s.out
  | .timing => t.timing = s.timing
  | .line => t.line = s.line
  | .roster => t.roster = s.roster
  | .sync => t.sync = s.sync
  | .pair => t.pair = s.pair
  | .port => t.port = s.port
  | .pending => t.pending = s.pending

/-- From `s` to `t` nothing changes but the parts listed: with `store` alone listed LIVE stays, and with `tb` alone the
counter. -/
def SameBut (ps : List Part) (s t : State) : Prop := ∀ p, p ∉ ps → Agree p s t

/-- What passes of an empty command: the real time it brings, and the light lines catching up with their claims. -/
def Idle (s t : State) (dt : Nat) : Prop :=
  SameBut [.clock, .out] s t ∧ t.clock = s.clock + dt ∧ t.out.pips = s.out.pips ∧ t.out.samples = s.out.samples

/-! ## Notices -/

/-- The notices of `p` head those of `t`: nothing posted before is gone, and what follows came later. -/
def Posted (p : Port) (t : State) : Prop := p.urgent <+: t.port.urgent ∧ p.routine <+: t.port.routine

/-- Between `s` and `t` the notice `n` is posted, others before and after it or none. -/
def Announced (s t : State) (n : Notice) : Prop :=
  ∃ p : Port, s.port.urgent <+: p.urgent ∧ s.port.routine <+: p.routine ∧ Posted (p.post n) t

/-- A LOCK notice of this cause and correction is posted, with the lock state and the slip count as they stand after (R70). -/
def LockPosted (s t : State) (c : LockCause) (correction : Word) : Prop :=
  ∃ l : LockNotice, Announced s t (.lock l) ∧ l.cause = c ∧ l.correction = correction ∧ l.lock = t.tb.lock ∧
    l.slipCount = t.tb.slipCount

/-- An unfit STANDBY member stays STANDBY, blocked from the takeover that `c` asks for (R182): it says so once, with the partner as
given and the conditions of fitness that fail; `p` is the port before that. -/
def BlockedBy (s t : State) (p : Port) (c : RoleCause) (present : Bool) (role : Option Role) : Prop :=
  t.pair.role = .standby ∧ t.pair.blocked = true ∧
    t.port = if s.pair.blocked then p else
      p.post (.takeoverBlocked c present role (decide (s.sync.step ≠ .inStep)) (!s.usable) s.line.muted)

/-! ## Where a command has its effect -/

/-- The station is in RUN, and the delimiter of the reception in course came in RUN while it was silent (R138, R140). -/
def State.listens (s : State) : Prop := s.run = .run ∧ s.line.rx = .inRun

/-- A reception that is accepted (R138 to R140): message `m` of station `n` to destination `b`, and `n` is another station. -/
def State.hears (s : State) (rx : Reception) (n : StationNo) (b : Byte) (m : RxMsg) : Prop :=
  s.listens ∧ s.classify rx = .good n b m ∧ n ≠ s.straps.number

/-- The same, but bearing this station's own number (R141, R143). -/
def State.hearsOwn (s : State) (rx : Reception) (b : Byte) (m : RxMsg) : Prop :=
  s.listens ∧ s.classify rx = .good s.straps.number b m

/-- The command `c` is a frame pulse (R52, R53): in RUN, a reference pulse not too early while REF_LOST is clear, or a flywheel
pulse due while it is set. -/
def State.pulsed (s : State) (c : Instr) (p : Pulse) : Prop :=
  s.run = .run ∧
    (c = .referencePulse p ∧ s.tb.refLost = false ∧
        (∀ m, s.tb.lastPulse = some m → nominalPeriod s.config.rate ≤ 2 * (s.clock + p.dt - m)) ∨
      c = .flywheelPulse p ∧ s.tb.refLost = true ∧
        ∀ m, s.tb.lastPulse = some m → m + nominalPeriod s.config.rate ≤ s.clock + p.dt)

/-- The host is told where a message of this kind fails or is flushed: all but PRESENCE, MARK and PART (R135, R143). -/
def OutMsg.failureTold (m : OutMsg) : Bool := !(m.isPresence || m.isMark || m.isPart)

/-- The command that applies an air message. -/
def AirMsg.command (dt : Nat) : AirMsg → Instr
  | .standby _ => .standby dt
  | .take _ _ _ => .take dt
  | .hold _ => .hold dt
  | .resume _ => .resume dt
  | .skip _ => .skip dt
  | .close _ => .close dt

/-- The command that brings an accepted message of this kind (R141). -/
def RxMsg.row (dt : Nat) (rx : Reception) : RxMsg → Instr
  | .ordered _ => .receiveOrderedMessage dt rx
  | .mark _ => .receiveMark dt rx
  | .yield => .receiveYield dt rx
  | .presence _ => .receivePresence dt rx
  | .ask => .receiveAsk dt rx
  | .ready _ _ => .receiveReady dt rx
  | .relay _ => .receiveRelay dt rx
  | .part k _ => if k = 0 then .receivePartOpening dt rx else .receivePart dt rx

/-- The commands that bring the end of a reception. -/
def receiveRows (dt : Nat) (rx : Reception) : List Instr :=
  [.badReception dt rx, .receiveOrderedMessage dt rx, .receiveMark dt rx, .receivePresence dt rx, .receiveAsk dt rx,
    .receivePartOpening dt rx, .receivePart dt rx, .receiveReady dt rx, .receiveRelay dt rx, .receiveYield dt rx]

/-- In RUN, the head request is of kind `k` with the fields `f` and none waits in hand (R195). -/
def State.asked (s : State) (k : ReqKind) (f : List Byte) : Prop :=
  s.run = .run ∧ s.port.inHand = false ∧ ∃ r q, s.port.requests = r :: q ∧ reqKind r = some k ∧ r.tail = f

/-- The state with this host transfer in progress. -/
def State.withTransfer (s : State) (x : Option Transfer) : State := { s with port := { s.port with transfer := x } }

/-- The command begins a host transfer that runs on (R193). -/
def beginsTransfer : Instr → Bool
  | .requestWrite .begins _ | .noticeRead .begins | .portControlWrite .begins => true
  | _ => false

/-- The command ends a host transfer in progress (R193). -/
def endsTransfer : Instr → Bool
  | .requestWrite (.ends _) _ | .noticeRead .ends | .portControlWrite (.ends _) | .invalidTransfer _ _ => true
  | _ => false

/-- The command is a host transfer at one moment (R193). -/
def wholeTransfers : Instr → Bool
  | .requestWrite (.whole _) _ | .noticeRead (.whole _) | .portControlWrite (.whole _) | .portStatusRead => true
  | _ => false

/-- The requests other than CONFIGURE and RESTART, each with the command that handles it (R195). -/
def requestRows : List (ReqKind × Instr) :=
  [(.propose, .propose), (.standby, .standbyRequest), (.take, .takeRequest), (.hold, .holdRequest), (.resume, .resumeRequest),
    (.skip, .skipRequest), (.close, .closeRequest), (.yield, .yieldRequest), (.relay, .relayRequest), (.readItem, .readItem),
    (.readOrder, .readOrder), (.readPeer, .readPeer), (.readTiming, .readTiming), (.readArmed, .readArmed)]

/-- The six air requests among them (R201). -/
def airRows : List (ReqKind × Instr) := requestRows.filter fun x =>
  decide (x.1 ∈ [ReqKind.standby, .take, .hold, .resume, .skip, .close])

/-- What a refusal of this kind carries besides its reason (R204). -/
def ReqKind.detail (f : List Byte) : ReqKind → RefuseDetail
  | .propose => proposeDetail f
  | .standby | .take | .skip => namedItem f
  | .readItem | .readOrder | .readPeer | .readTiming | .readArmed => .argument f
  | .configure | .restart | .hold | .resume | .close | .yield | .relay => .none

/-- The fields of an air request can be read (R201, R209). -/
def ReqKind.readable (f : List Byte) : ReqKind → Bool
  | .standby | .skip => (readId f).isSome
  | .take => (readTake f).isSome
  | .configure | .restart | .propose | .hold | .resume | .close | .yield | .relay | .readItem | .readOrder | .readPeer
  | .readTiming | .readArmed => f.isEmpty

/-- An air message of station `n`, with air count `c`, stands at the head of the apply queue and its apply holds the store
(R25). -/
def State.airing (s : State) (n : StationNo) (c : Word) (m : AirMsg) : Prop :=
  s.run ≠ .reset ∧ s.store.holder = some .apply ∧ ∃ q, s.apply.queue = .ordered n (.air c m) :: q

/-- The air message is refused with result `e` (R42, R49): LIVE and the air count stay, and one AIR_DONE is posted. -/
def AirRefused (s t : State) (n : StationNo) (m : AirMsg) (e : Result) : Prop :=
  Agree .live s t ∧ t.port = s.port.post (.airDone n m (m.subject s.store.live) e s.store.live.airCount)

/-- The air message is applied (R42, R49, R6): LIVE is `r` with the air count one higher and its new check word, the summary
copy follows, and AIR_DONE joins the ROUTINE notices where a place is free. -/
def AirApplied (s t : State) (n : StationNo) (m : AirMsg) (r : Replica) : Prop :=
  t.store.live = Replica.sealed { r with airCount := s.store.live.airCount + 1 } ∧
    t.store.summary = t.store.live.summary ∧
    (s.port.post (.airDone n m (m.subject s.store.live) .applied (s.store.live.airCount + 1))).routine <+: t.port.routine

/-- The TIMING notice of an item on air that a TAKE (`byTake`) or a CLOSE ends at frame `f` (R119): its hold in force is ended there. -/
def timingOf (x : Item) (a : Airing) (f : Frame) (byTake : Bool) : TimingNotice :=
  let used := match x.short with
    | some d => if a.short || x.planShort then d else x.planned
    | none => x.planned
  let hold := match a.heldAt with
    | some h => holdEnded a.holdTotal h f
    | none => a.holdTotal
  ⟨x.id, a.start, f, used, f - a.start, hold, f - a.start - hold, f - a.start - hold - used.setWidth 32, byTake⟩

/-- The commands of the eight edit operations. -/
def editRows : List Instr := [.insert, .delete, .move, .amend, .addCue, .dropCue, .setOut, .revive]

/-- The EDIT `m` goes on with `b`: the batch in hand, or a new one where the base version is LIVE's and the count is 1 to 6 (R30, R31). -/
def State.batchOf (s : State) (m : EditMsg) (b : Batch) : Prop :=
  s.apply.batch = some b ∨ s.apply.batch = none ∧ m.base = s.store.live.version ∧ 1 ≤ m.count.toNat ∧ m.count.toNat ≤ 6 ∧
    b = Batch.start s.store.live m

/-- The apply of the EDIT `m` holds the store and its next operation is `op` (R25, R31). -/
def State.editing (s : State) (m : EditMsg) (b : Batch) (op : RawOp) (rest : List Byte) : Prop :=
  s.store.holder = some .apply ∧ (∃ n q, s.apply.queue = .ordered n (.edit m) :: q) ∧ s.batchOf m b ∧
    ∃ bytes, cutOp true b.rest = some (bytes, rest) ∧ readOp bytes = some op

/-- The operation fails with `e` (R31, R41): the whole batch is refused, LIVE stays, and one EDIT_DONE names the operation. -/
def EditRefused (s t : State) (m : EditMsg) (b : Batch) (e : Result) : Prop :=
  Agree .live s t ∧ t.apply.batch = none ∧
    t.port = s.port.post (.editDone m.proposer m.tag e (b.index + 1) s.store.live.version [])

/-- The operation `op` passes and makes `r` of the batch's replica (R31): the last of the batch puts it in LIVE with the version one
higher and its new check word, and EDIT_DONE says APPLIED with index 0 and the ids inserted (R41); another leaves LIVE and the
batch goes on from `rest`, the model's choice (log 11). -/
def EditPassed (s t : State) (m : EditMsg) (b : Batch) (op : RawOp) (rest : List Byte) (r : Replica) : Prop :=
  if b.index + 1 = m.count.toNat then
    t.store.live = Replica.sealed { r with version := r.version + 1 } ∧ t.store.summary = t.store.live.summary ∧
      t.apply.batch = none ∧
      Posted (s.port.post (.editDone m.proposer m.tag .applied 0 t.store.live.version (b.note op).inserted)) t
  else
    Agree .live s t ∧ SameBut [.apply, .out] s t ∧
      ∃ c, t.apply.batch = some c ∧ c.work = r ∧ c.index = b.index + 1 ∧ c.rest = rest

/-- An EDIT or an air message `e` of the line stands last in the apply queue, and only markers have left it (R23, R25). -/
def Joined (s t : State) (e : QueueEntry) : Prop :=
  (∃ gone, s.apply.queue ++ [e] = gone ++ t.apply.queue ∧ ∀ g ∈ gone, g.isOrdered = false) ∧ t.apply.queue.getLast? = some e

/-- An attempt of `m`, the head of class `c` before `q`, has begun (R132): its fields are stamped, its bytes are on the line, and
where it needs a place of the apply queue one is reserved. -/
def Attempted (s t : State) (dt : Nat) (c : TxClass) (m : TxMsg) (q : List TxMsg) : Prop :=
  let msg := m.msg.stamp s.now s.store.summary.airCount
  t.line.transmitting = true ∧ t.line.driven = msg.transmission s.straps.number ∧ t.line.attemptAt = s.clock + dt ∧
    t.line.queue c = { m with msg := msg } :: q ∧ t.line.backoff = none ∧
    t.apply.reserved = (msg.needsPlace || s.apply.reserved) ∧ SameBut [.clock, .line, .apply] s t

/-- The head request is accepted with the message `m`, which joins its class's queue (R130, R195). -/
def Offered (s t : State) (m : OutMsg) : Prop :=
  t.line.queue m.cls = s.line.queue m.cls ++ [⟨m, 0, false⟩] ∧
    t.port = { s.port with requests := s.port.requests.tail, inHand := false }

/-- The head request is refused, and one REQ_REFUSED says so (R195, R204): nothing else changes. -/
def ReqRefused (s t : State) (k : Option ReqKind) (r : RefuseReason) (d : RefuseDetail) : Prop :=
  SameBut [.port] s t ∧
    t.port = ({ s.port with requests := s.port.requests.tail, inHand := false } : Port).post (.reqRefused k r d)

/-- The head request is answered with `n` (R203): nothing else changes. -/
def Replied (s t : State) (n : Notice) : Prop :=
  SameBut [.port] s t ∧ t.port = { s.port.post n with requests := s.port.requests.tail, inHand := false }

/-! ## The schedule (chapter 4) -/

/-- The FIRE and END notices of the entry go out: not in SHADOW, or for a FIRE on a mirrored resource (R188). -/
def State.shown (s : State) (e : Entry) : Bool :=
  !e.flags.shadow || (match e.cue.resource with
    | some r => (s.config.resources[r]).mirror
    | none => false)

/-- What the shadow list takes of a FIRE or MARKER entry that left the table, its fire frame `f` (R189): in SHADOW a record, in place of
one of its name (log 16), or where 16 stand the overflow mark alone; else nothing. -/
def Recorded (s t : State) (e : Entry) (f : Frame) : Prop :=
  (e.flags.shadow = false → t.sched.shadowList = s.sched.shadowList ∧ t.sched.overflow = s.sched.overflow) ∧
    (e.flags.shadow = true →
      (s.sched.shadowList.length < 16 → t.sched.overflow = s.sched.overflow ∧ ∃ x : ShadowRec,
        t.sched.shadowList = (s.sched.shadowList.filter fun r => decide ((r.item, r.cue.slot) ≠ e.key)) ++ [x] ∧
        x.item = e.item ∧ x.cue = e.cue ∧ x.fire = f ∧ x.key = f ∧ x.endFrame = e.endFrame ∧ x.length = e.length ∧
        x.mirror = s.shown e) ∧
      (16 ≤ s.sched.shadowList.length → t.sched.shadowList = s.sched.shadowList ∧ t.sched.overflow = true))

/-- A FIRE entry other than the one named `k`, on resource `r` with fire frame `f`. -/
def State.otherFire (s : State) (k : EntryKey) (r : Fin 16) (f : Frame) (e : Entry) : Prop :=
  e ∈ s.sched.armed ∧ e.key ≠ k ∧ e.cue.resource = some r ∧ e.fire = some f

/-- The repeat gap of R81 for frame `g` on resource `r`. -/
def State.repeatClear (s : State) (k : EntryKey) (r : Fin 16) (g : Frame) : Prop :=
  (∀ f e, s.otherFire k r f e → (s.config.resources[r]).repeatGap.toNat ≤ distance g f) ∧
    ∀ f, s.sched.resources[r].lastFire = some f → (s.config.resources[r]).repeatGap.toNat ≤ distance g f

/-- The span of R81 for frame `g` on resource `r`, of a cue `len` frames long. -/
def State.spanClear (s : State) (k : EntryKey) (r : Fin 16) (len : Nat) (g : Frame) : Prop :=
  let recovery := frames (s.config.resources[r]).recovery.toNat
  (∀ f e, s.otherFire k r f e →
    (∀ b, e.endFrame = some b → inSpan g f (b + recovery) = false) ∧ inSpan f g (g + frames len + recovery) = false) ∧
    ∀ f, s.sched.resources[r].recoveryUntil = some f → earlier g f = false

/-- The group gap of R81 for frame `g` on resource `r`. -/
def State.groupClear (s : State) (k : EntryKey) (r : Fin 16) (g : Frame) : Prop :=
  let group := (s.config.resources[r]).group
  let gap := (s.config.groupGaps[group]).toNat
  (∀ r' f e, r' ≠ r → (s.config.resources[r']).group = group → s.otherFire k r' f e → gap ≤ distance g f) ∧
    ∀ f r', s.sched.groups[group] = some (f, r') → r' ≠ r → gap ≤ distance g f

/-- Frame `g` is legal for the cue (R81). -/
def State.legal (s : State) (k : EntryKey) (r : Fin 16) (len : Nat) (g : Frame) : Prop :=
  s.repeatClear k r g ∧ s.spanClear k r len g ∧ s.groupClear k r g

/-- The cue has an entry in the table of `t` with the frames of R80: fire frame `f`, and what `p` says of its kind. An entry from STANDBY
keeps its state and any prepare taken; under a held-at one whose next action lies after it is HELD (R96). -/
def ArmedWith (s t : State) (id : ItemId) (a : Airing) (c : Cue) (f : Frame) (p : Entry → Prop) : Prop :=
  let old := s.sched.find (id, c.slot)
  let state := (old.map (·.state)).getD .armed
  (∀ e ∈ s.sched.armed, e.key ≠ (id, c.slot) → e ∈ t.sched.armed) ∧
    ∃ x ∈ t.sched.armed, x.key = (id, c.slot) ∧ x.cue = (old.map (·.cue)).getD c ∧ x.basis = .onAir a ∧
      x.planned = some (a.start + c.offset.signExtend 32 + a.holdTotal) ∧ x.fire = some f ∧
      x.length = c.lengthInForce a.short ∧ x.preparedAt = (old.bind (·.preparedAt)) ∧
      (a.heldAt = none → x.state = state) ∧
      (∀ h n, a.heldAt = some h → ({ x with state := state } : Entry).nextAction s.env = some n →
        if later n h then x.state = .held ∧ x.previous = some state else x.state = state) ∧ p x

/-- The cue is refused (R82, R83): no entry of it stands in the table of `t`, and CONFLICT says why. -/
def CueRefused (s t : State) (id : ItemId) (c : Cue) (why : ConflictReason) (planned : Option Frame) : Prop :=
  (∀ e ∈ t.sched.armed, e.key ≠ (id, c.slot)) ∧ ∃ released, Announced s t (.conflict id c why planned released)

/-- A cue of the item on air is armed (R80 to R83): missed in a full table; a FIRE cue on its planned frame where that is legal, else
refused if HARD, else on the first legal frame up to 250 later; a LIGHT cue off the wrap line, a PIPS cue alone on its line, and a
MARKER cue on the planned frame. -/
def TakeArms (s t : State) (id : ItemId) (a : Airing) (c : Cue) : Prop :=
  let k : EntryKey := (id, c.slot)
  let planned := a.start + c.offset.signExtend 32 + a.holdTotal
  (s.sched.find k = none → 32 ≤ s.sched.armed.length →
    t.sched.armed = s.sched.armed ∧ Announced s t (.missed id c .tableFull (some planned) none)) ∧
    ((s.sched.find k).isSome = true ∨ s.sched.armed.length < 32 →
      match c.body with
      | .fire r hard _ =>
        let len := ((c.lengthInForce a.short).map (·.toNat)).getD 1
        let preroll := (s.config.resources[r]).preroll.toNat
        let fires (d : Nat) := ArmedWith s t id a c (planned + frames d) fun x =>
          x.deferral = d ∧ x.flags.deferred = decide (0 < d) ∧ x.endFrame = some (planned + frames d + frames len) ∧
            (x.preparedAt = none → x.prepare = if preroll = 0 then none else some (planned + frames d - frames preroll))
        (s.legal k r len planned → fires 0) ∧
          (hard = true →
            (¬ s.repeatClear k r planned → CueRefused s t id c .repeatGap (some planned)) ∧
            (s.repeatClear k r planned → ¬ s.spanClear k r len planned → CueRefused s t id c .span (some planned)) ∧
            (s.repeatClear k r planned → s.spanClear k r len planned → ¬ s.groupClear k r planned →
              CueRefused s t id c .groupGap (some planned))) ∧
          (hard = false → ¬ s.legal k r len planned →
            (∀ d, 1 ≤ d → d ≤ 250 → s.legal k r len (planned + frames d) →
              (∀ d', 1 ≤ d' → d' < d → ¬ s.legal k r len (planned + frames d')) → fires d) ∧
            ((∀ d, 1 ≤ d → d ≤ 250 → ¬ s.legal k r len (planned + frames d)) →
              CueRefused s t id c .deferLimit (some planned)))
      | .light l _ =>
        (s.config.wrapLine = some l → CueRefused s t id c .wrapLine (some planned)) ∧
          (s.config.wrapLine ≠ some l → ArmedWith s t id a c planned fun x =>
            x.endFrame = x.length.map (fun n => planned + frames n.toNat) ∧
              (s.sched.find k = none → x.warn = some (planned - frames (s.config.warnLeads[l]).toNat)))
      | .pips l n =>
        1 ≤ n → (∀ e ∈ s.sched.armed, e.key ≠ k → ∀ m, e.cue.body ≠ .pips l m) →
          ArmedWith s t id a c planned fun x => x.kept = countIn s.second n planned ∧ x.flags.trimmed = false ∧
            x.endFrame = some (planned + frames (longOccupancy s.second))
      | .marker => ArmedWith s t id a c planned fun _ => True)

/-- What a STANDBY or a TAKE finds of its item from before is cancelled ahead of the arming, the model's choice (log 37): the entries that
`keep` does not spare, each of which gives back the resource that it holds (R77, R91). The item is no longer the one most recently DONE. -/
def FormerCancelled (s t : State) (id : ItemId) (keep : Entry → Bool) : Prop :=
  t.sched.lastDone = (s.sched.lastDone.filter fun d => decide (d.1 ≠ id)) ∧
    ∀ e ∈ s.sched.armed, e.item = id → keep e = false →
      (e.flags.shadow = false → ∃ notified running released, Announced s t
        (.cancel id e.cue (if s.sched.rearmWanted then .adoption else .itemEnd) notified running released)) ∧
      ∀ r, e.cue.resource = some r → s.sched.resources[r].holder = some e.key →
        (s.sched.resources[r].state = .prepared →
          t.sched.resources[r] = { s.sched.resources[r] with state := .idle, holder := none }) ∧
        (s.sched.resources[r].state = .busy → t.sched.resources[r] = { s.sched.resources[r] with
          state := .recovering, holder := none
          recoveryUntil := some (s.now + frames (s.config.resources[r]).recovery.toNat) })

/-- A cue of the item standing by is armed (R79), beside the entries of the other items: a FIRE cue whose resource has a preroll asks for it
now, a LIGHT cue off the wrap line warns now; the others get no entry. -/
def StandbyArms (s t : State) (id : ItemId) (c : Cue) : Prop :=
  let others := s.sched.armed.filter fun e => decide (e.item ≠ id)
  let none_ := (∀ e, e ∈ t.sched.armed ↔ e ∈ others) ∧ ((∀ e ∈ s.sched.armed, e.item ≠ id) → t.sched.armed = s.sched.armed)
  let armed (p : Entry → Prop) := (32 ≤ others.length → none_ ∧ Announced s t (.missed id c .tableFull none none)) ∧
    (others.length < 32 → ∃ x, x.key = (id, c.slot) ∧ x.cue = c ∧ x.basis = .standingBy ∧ x.fire = none ∧ x.state = .armed ∧ p x ∧
      ∀ e, e ∈ t.sched.armed ↔ e = x ∨ e ∈ others)
  match c.body with
  | .fire r _ _ =>
    ((s.config.resources[r]).preroll = 0 → none_) ∧ ((s.config.resources[r]).preroll ≠ 0 → armed fun x => x.prepare = some s.now)
  | .light l _ =>
    (s.config.wrapLine = some l → CueRefused s t id c .wrapLine none) ∧
      (s.config.wrapLine ≠ some l → armed fun x => x.warn = some s.now)
  | .pips _ _ | .marker => none_

/-! ## Well-formed records, as the tables of chapters 1 and 12 give them -/

/-- Lengths are 1 to 65,535, a short length not above the full one (R14). -/
def Lengths.wf (l : Lengths) : Prop := l.full ≠ 0 ∧ ∀ x, l.short = some x → x ≠ 0 ∧ x ≤ l.full

/-- The fields of R14: lengths in range, 1 to 10 pips. -/
def CueBody.wf : CueBody → Prop
  | .fire _ _ l | .light _ l => ∀ x, l = some x → x.wf
  | .pips _ n => 1 ≤ n ∧ n ≤ 10
  | .marker => True

/-- The timing fields of R11 in their ranges. -/
def ItemStatus.wf : ItemStatus → Prop
  | .onAir a => a.holdTotal.toNat ≤ maxSpan
  | .done _ _ hold _ actual => hold.toNat ≤ maxSpan ∧ 1 ≤ actual.toNat ∧ actual.toNat ≤ maxSpan
  | .pending | .standingBy | .skipped => True

/-- An item of R9 to R14: its slug, at most 16 cues in ascending slots, every field in range. -/
def Item.wf (i : Item) : Prop :=
  slugOk i.slug ∧ i.cues.length ≤ maxItemCues ∧ slotsAscend i.cues ∧ (∀ c ∈ i.cues, c.body.wf) ∧ i.status.wf

/-- A PRESENCE names a partner exactly where it names a pair mode (R152). -/
def Presence.wf (p : Presence) : Prop := p.partner.isSome ↔ p.pairMode ≠ .none

/-- A message of R129 and R207: its payload of the length its kind has, its destination of the form. -/
def OutMsg.wf : OutMsg → Prop
  | .edit m => m.ops.length ≤ 247
  | .relay d data => destForm .relay d ∧ 1 ≤ data.length ∧ data.length ≤ 240
  | .part n c => (n = 0 ∧ c = []) ∨ (n = 1 ∧ c.length = 18) ∨ (2 ≤ n ∧ n ≤ 97 ∧ ∃ i : Item, i.wf ∧ c = i.bytes)
  | .mark _ | .air _ _ | .yield _ | .presence _ | .ask | .ready _ _ => True

/-- What a station that hears the message makes of it (R141). -/
def OutMsg.heard : OutMsg → RxMsg
  | .mark f => .mark f
  | .air n m => .ordered (.air n m)
  | .yield _ => .yield
  | .presence c => .presence c.bytes
  | .edit m => .ordered (.edit m)
  | .ask => .ask
  | .ready l i => .ready (byteOf l.val) i
  | .relay _ d => .relay d
  | .part n c => .part n c

/-! ## Bounds -/

/-- The notice queues and the request queue hold no more than their places (R194, R196). -/
def Port.within (p : Port) : Prop :=
  p.urgent.length ≤ urgentPlaces ∧ p.routine.length ≤ routinePlaces ∧ p.requests.length ≤ requestPlaces

/-- The armed table holds at most 32 entries, never two of one item id and slot (R72), and the shadow list at most 16 records
(R189). -/
def Scheduler.within (sc : Scheduler) : Prop :=
  sc.armed.length ≤ armedPlaces ∧ sc.shadowList.length ≤ shadowPlaces ∧ (sc.armed.map Entry.key).Nodup

/-- The transmit queues hold no more than their places (R130). -/
def Line.within (l : Line) : Prop := ∀ c : TxClass, (l.queue c).length ≤ c.places

/-- The queues and tables of the station hold no more than their places, and the armed table no name twice: the laws of R72, R130,
R189, R194 and R196. -/
def State.within (s : State) : Prop := s.port.within ∧ s.sched.within ∧ s.line.within

/-- While gallery time is usable every light line shows the highest claim on it (R100), and it is usable in RUN alone. -/
def State.lightsFollow (s : State) : Prop :=
  (s.run ≠ .run → s.tb.lock = .free) ∧ (s.usable = true → ∀ line : Fin 8, s.out.lights[line] = s.claimed line)

/-- The law of an item: at most 16 cues, in ascending slot order, so that no two share a slot (R7, R12). -/
def Item.lawful (i : Item) : Prop := i.cues.length ≤ maxItemCues ∧ slotsAscend i.cues = true

def ItemStatus.isOnAir : ItemStatus → Bool
  | .onAir _ => true
  | .pending | .standingBy | .done .. | .skipped => false

/-- The law of the replica (R7, R10): at most 96 items, no two of one id, at most 512 cues, every item lawful, and at most one item
ON_AIR and one STANDING_BY. -/
def Replica.lawful (r : Replica) : Prop :=
  r.items.length ≤ maxItems ∧ (r.items.map (·.id)).Nodup ∧ r.cueCount ≤ maxCues ∧ (∀ i ∈ r.items, i.lawful) ∧
    (∀ i ∈ r.items, ∀ j ∈ r.items, i.status.isOnAir = true → j.status.isOnAir = true → i.id = j.id) ∧
    ∀ i ∈ r.items, ∀ j ∈ r.items, i.status = .standingBy → j.status = .standingBy → i.id = j.id

/-- LIVE obeys the law of the replica, and so does SHADOW in every use (R7, R16). -/
def Store.lawful (st : Store) : Prop := st.live.lawful ∧ st.shadow.lawful

/-- So does the replica that a batch in hand has made so far (R31). -/
def ApplyEngine.lawful (a : ApplyEngine) : Prop := ∀ b, a.batch = some b → b.work.lawful

def State.lawful (s : State) : Prop := s.store.lawful ∧ s.apply.lawful

/-- The apply queue, with a reservation, holds at most 8 (R22). -/
def ApplyEngine.within (a : ApplyEngine) : Prop := a.queue.length + (if a.reserved then 1 else 0) ≤ applyPlaces

/-- A place is reserved only while this station transmits; what it then transmits stands at the head of its class, and where that needs
a place one is reserved; no reception is in course meanwhile (R22, R24, R138). -/
def State.reserves (s : State) : Prop :=
  (s.apply.reserved = true → s.line.transmitting = true) ∧
    (s.line.transmitting = true → s.line.rx ≠ .inRun ∧
      ∃ m, s.line.inFlight = some m ∧ (m.msg.needsPlace = true → s.apply.reserved = true))

/-- The law of the apply queue (R22), with what the line controller keeps for it. -/
def State.placed (s : State) : Prop := s.apply.within ∧ s.reserves

end Sys2Proof.Machine
end

