-- ==== Sys2Proof/WellFormed.lean ====
section
/-! DEFINITION. Which commands can come at all: checks on their operands that the spec's formats fix. The machine does not
rely on them; each meaning is total. -/

namespace Sys2Proof

/-- A frame pulse names no block twice in its order. -/
def Pulse.wf (p : Pulse) : Bool := decide p.order.Nodup

/-- A message is at most 264 bytes from its first header byte to its last check byte (R126), and reception ends there. -/
def Reception.wf (r : Reception) : Bool := decide (r.bytes.length ≤ 264)

/-- A request write carries no more bytes than its length announces (R194), and its beginning none. The meaning drops any beyond the
length (log 36). -/
def requestWf (length : WriteStretch) (bytes : List Byte) : Bool :=
  match length with
  | .whole n | .ends n => decide (bytes.length ≤ n.toNat)
  | .begins => bytes.isEmpty

/-- An invalid transfer names no location, or carries data against the direction of the location (R193): bytes from the
host after a read location's code, or none after a write location's. The spec does not say the latter of a request write that ends
before its length byte, or of a control write without its byte: that they count as invalid, without request-lost, is the
model's choice (log 36). -/
def invalidTransferWf (first : Byte) (rest : List Byte) : Bool :=
  if first = 1 ∨ first = 4 then rest.isEmpty
  else if first = 2 ∨ first = 3 then !rest.isEmpty
  else true

def Instr.wf : Instr → Bool
  | .referencePulse p | .refLost p | .flywheelPulse p => p.wf
  | .receiveOrderedMessage _ r | .receiveMark _ r | .receivePresence _ r | .receiveAsk _ r | .receivePartOpening _ r
  | .receivePart _ r | .receiveReady _ r | .receiveRelay _ r | .receiveYield _ r | .badReception _ r => r.wf
  | .requestWrite n b => requestWf n b
  | .invalidTransfer f r => invalidTransferWf f r
  | .resetPin | .resetEnd _ | .silence | .acquireTimeout | .holdoverExpired | .recoveryEnds _ | .scan _
  | .itemEndCancel | .shadowRecordsExpire | .pipStarts _ _ | .pipEnds _ _ | .warnPoint | .expiryPoint
  | .endingRecordDropped | .peerAbsent _ | .founded | .askWaitExpires | .askRetryExpires | .responseWaitExpires
  | .gapTimeout | .yieldFailed | .markCapture _ | .transmitAttempt _ _ | .collision _ | .backoffExpires _ _
  | .transmissionComplete _ | .storeGrant | .insert | .delete | .move | .amend | .addCue | .dropCue | .setOut | .revive
  | .standby _ | .take _ | .hold _ | .resume _ | .skip _ | .close _ | .freezeCopy | .partRead | .partWrite
  | .shadowCheck | .bankSwap | .rearmRead _ | .takeoverRead _ | .projectionRead | .itemReadComplete
  | .orderReadComplete | .noticeRead _ | .portStatusRead | .portControlWrite _ | .configure _ | .restart _ | .propose
  | .standbyRequest | .takeRequest | .holdRequest | .resumeRequest | .skipRequest | .closeRequest | .yieldRequest
  | .relayRequest | .readItem | .readOrder | .readPeer | .readTiming | .readArmed | .unknownRequest => true

end Sys2Proof
end

