-- ==== Sys2Proof/Certificates/Slice0/Obligations.lean ====
section
/-! DEFINITION. The statements. -/

open Sys2Proof Sys2Proof.Machine

/-! ## The step, reset and the laws of every state -/

/-- A step carries out the command at the front on the state with the queue's rest. -/
def Obligations.StepTakesFront : Prop :=
  ∀ (c : Instr) (rest : List Instr) (s : State), s.pending = c :: rest → step s = exec c { s with pending := rest }

/-- No command stops the part, and with none waiting nothing happens: the model's choice (log 4). -/
def Obligations.NothingStops : Prop :=
  (∀ (c : Instr) (s : State), ∃ t, exec c s = .next t) ∧ ∀ s : State, s.pending = [] → step s = .next s

/-- After reset (the table of R147): every block's registers, queues, tables, counts and flags. The straps low, the commands waiting,
the clock, nothing driven and nothing read are the model's (logs 1, 5). -/
def Obligations.ResetState : Prop :=
  let s := State.reset
  s.run = .start ∧ s.cfg = none ∧ s.pending = [] ∧ s.clock = 0 ∧ s.owned = [] ∧
    s.store.live.items = [] ∧ s.store.live.version = 0 ∧ s.store.live.airCount = 0 ∧ s.store.live.hardOut = none ∧
    s.store.live.check = s.store.live.checkWord ∧ s.store.shadow = s.store.live ∧ s.store.use = .empty ∧
    s.store.summary = s.store.live.summary ∧ s.store.holder = none ∧ (∀ c, s.store.waiting c = none) ∧
    s.apply = { queue := [], reserved := false, holding := false, batch := none, serial := 0 } ∧
    s.tb = {
      counter := 0, lock := .free, agree := 0, silence := 0, holdover := 0, followed := none, capture := none,
      source := false, slipCount := 0, lastSlip := none, refLost := false, lastPulse := none, watchFrom := 0 } ∧
    s.sched.armed = [] ∧ (∀ r : Fin 16, s.sched.resources[r] = ⟨.idle, none, none, none⟩) ∧
    (∀ g : Fin 4, s.sched.groups[g] = none) ∧ s.sched.holdFrame = none ∧ s.sched.lastDone = none ∧
    s.sched.doneThrough = none ∧ s.sched.shadowList = [] ∧ s.sched.overflow = false ∧ s.sched.rearmWanted = false ∧
    s.sched.takeover = none ∧ (∀ l : Fin 8, s.out.lights[l] = .off ∧ s.lightPin l = false) ∧
    (∀ l : Fin 2, s.out.pips[l] = none ∧ s.pipPin l = false ∧ s.levelPin l = false) ∧ s.out.samples = none ∧
    s.changeoverPin = false ∧ s.cautionPin = false ∧ s.port.interrupt = false ∧
    s.timing = {
      onAir := none, ending := none, wrapClaim := .off, wrapItem := none,
      projection := { onAir := none, remaining := 0, hardOut := none }, readAgain := false, rebuild := false, sign := .absent } ∧
    s.line = {
      urgent := [], routine := [], bulk := [], flight := none, transmitting := false, attemptAt := 0, driven := [],
      backoff := none, muted := false, rx := .none, record := ⟨0, 0, 0, 0, 0, 0, 0, 0, 0, 0, 0⟩ } ∧
    (∀ n : StationNo, s.peer n = { present := false, contents := none, lastHeard := none, silence := 0 }) ∧
    s.roster.lastSent = none ∧
    s.sync = {
      step := .joining, joinCount := 0, askWait := 0, ask := .none, askRetry := 0, phase := .awaiting, source := none,
      expected := 0, count := none, written := 0, buffer := [], gap := 0, responder := .idle, wait := none, nextPart := none,
      pendingAsk := false, askers := [] } ∧
    s.pair = { role := .solo, yield := .none, yieldCount := 0, fitness := [], blocked := false } ∧
    s.port = {
      requests := [], inHand := false, urgent := [], routine := [], requestLost := false, urgentLost := false,
      routineLost := false, urgentEnable := false, routineEnable := false, transfer := none, out := .none }

/-- RESET_PIN and RESET_END put every piece of state at its reset value, whatever the station does (R147), with the straps sampled at
the release (R146); a host transfer in progress is ignored from there to its end (R206). RESTART without fields, when handled,
does the same, requests behind it and notices included (R147); one with fields is refused with BAD_REQUEST, by R209 against
R204's none (log 27). That the straps of before stay through RESET_PIN, and the commands that wait outside through each, is the
model's choice (log 5). While the reset pin is asserted every command but the two of the pin changes nothing (R147), save that
a transfer which begins is ignored to its end, whenever that comes (R206). -/
def Obligations.ResetAndRestart : Prop :=
  let cleared := fun (s : State) => ({ State.reset with pending := s.pending } : State).withTransfer
    (s.port.transfer.map fun _ => .ignored)
  (∀ (s : State) (pins : Straps),
    exec .resetPin s = .next { cleared s with run := .reset, straps := s.straps } ∧
      exec (.resetEnd pins) s = .next { cleared s with straps := pins }) ∧
  (∀ (s : State) (pins : Straps) (r : List Byte) (q : List (List Byte)), s.run ≠ .reset → s.port.inHand = false →
    s.port.requests = r :: q → reqKind r = some .restart →
    (r.tail = [] → exec (.restart pins) s = .next { cleared s with straps := pins }) ∧
      (r.tail ≠ [] → ∃ t, exec (.restart pins) s = .next t ∧ ReqRefused s t (some .restart) .badRequest .none)) ∧
  ∀ (c : Instr) (pins : Straps) (q : List Instr) (x : Option Transfer), c ≠ .resetPin → (∀ p, c ≠ .resetEnd p) →
    x = none ∨ x = some .ignored →
    exec c ((State.resetTo .reset pins q).withTransfer x) = .next ((State.resetTo .reset pins q).withTransfer
      (if beginsTransfer c then some .ignored else if endsTransfer c then none else x))

/-- Reset satisfies the invariants below. -/
def Obligations.InvariantsAtReset : Prop :=
  State.reset.within ∧ State.reset.placed ∧ State.reset.lawful ∧ State.reset.lightsFollow

/-- No step takes the requests, the notices, the transmit queues, the armed table or the shadow list beyond their places: R194,
R196, R130, R72 and R189. The armed table never holds two entries of one item id and slot (R72). Nor does a step take the apply
queue with its reservation beyond 8, where a place is reserved only while the station transmits, and whenever what it transmits
needs one (R22). And every step keeps the law of the replica, in LIVE, in SHADOW and in the batch in hand (R7, R10, R16): at most
96 items of different ids, at most 512 cues, in each item at most 16 in ascending slots, at most one item ON_AIR and one
STANDING_BY. -/
def Obligations.WithinKept : Prop :=
  (∀ s t : State, s.within → step s = .next t → t.within) ∧ (∀ s t : State, s.placed → step s = .next t → t.placed) ∧
    ∀ s t : State, s.lawful → step s = .next t → t.lawful

/-- Every step leaves each light line at its claimed state while gallery time is usable (R100). While it is not usable every light
line holds its state whatever happens to the claims, but for a station reset (R102). -/
def Obligations.LightsKept : Prop :=
  (∀ s t : State, s.lightsFollow → step s = .next t → t.lightsFollow) ∧
    ∀ s t : State, s.run = .run → s.usable = false → step s = .next t → t.run = .run → t.usable = false →
      t.out.lights = s.out.lights

/-- Which commands may change what. The run state, the straps and the configuration: the reset pin, RESTART and CONFIGURE (R146, R147,
R149). LIVE: the eight edit operations, the six air messages, the bank swap, and reset. The frame counter (R51): the frame pulses,
a mark, and reset. -/
def Obligations.WritersOfConfigLiveAndCounter : Prop :=
  (∀ (c : Instr) (s t : State), exec c s = .next t → c ≠ .resetPin → (∀ p, c ≠ .resetEnd p) → (∀ p, c ≠ .restart p) →
    (∀ d, c ≠ .configure d) → t.run = s.run ∧ t.straps = s.straps ∧ t.cfg = s.cfg ∧ t.pending = s.pending) ∧
  ∀ (c : Instr) (s t : State), exec c s = .next t →
    (¬ Agree .live s t →
      c ∈ [Instr.insert, .delete, .move, .amend, .addCue, .dropCue, .setOut, .revive, .bankSwap, .resetPin] ∨
        (∃ d, c ∈ [Instr.standby d, .take d, .hold d, .resume d, .skip d, .close d]) ∨
        ∃ p, c ∈ [Instr.resetEnd p, .restart p]) ∧
    (t.tb.counter ≠ s.tb.counter →
      (∃ p, c ∈ [Instr.referencePulse p, .refLost p, .flywheelPulse p]) ∨ (∃ d r, c = .receiveMark d r) ∨ c = .resetPin ∨
        ∃ p, c ∈ [Instr.resetEnd p, .restart p])

/-! ## Frame pulses and gallery time (chapter 3) -/

/-- The reference and the flywheel. With REF_LOST clear a reference pulse that is not too early is a frame pulse: the counter rises by
one, modulo 2^32, and the loss test starts anew; an early one is ignored, and only real time passes (R51, R52). While REF_LOST is set
a flywheel pulse is due each nominal period and is a frame pulse (R53); the first reference pulse ends the loss, and counts unless it
comes less than half a nominal period after the last flywheel pulse (R54); its LOCK notice stands before those of its frame pulse
(log 9). -/
def Obligations.ReferenceAndFlywheel : Prop :=
  ∀ (s : State) (p : Pulse), s.run = .run →
    (s.tb.refLost = false →
      ((∀ m, s.tb.lastPulse = some m → nominalPeriod s.config.rate ≤ 2 * (s.clock + p.dt - m)) →
        ∃ t, exec (.referencePulse p) s = .next t ∧ t.tb.counter = s.tb.counter + 1 ∧ t.clock = s.clock + p.dt ∧
          t.tb.lastPulse = some t.clock ∧ t.tb.watchFrom = t.clock ∧ t.tb.refLost = false ∧
          Agree .live s t ∧ Agree .cfg s t ∧ Agree .straps s t ∧ Agree .run s t ∧ Agree .pending s t) ∧
      (∀ m, s.tb.lastPulse = some m → 2 * (s.clock + p.dt - m) < nominalPeriod s.config.rate →
        ∃ t, exec (.referencePulse p) s = .next t ∧ Idle s t p.dt)) ∧
    (s.tb.refLost = true →
      ((∀ m, s.tb.lastPulse = some m → m + nominalPeriod s.config.rate ≤ s.clock + p.dt) →
        ∃ t, exec (.flywheelPulse p) s = .next t ∧ t.tb.counter = s.tb.counter + 1 ∧ t.tb.refLost = true ∧
          t.tb.lastPulse = some (s.clock + p.dt) ∧ Agree .live s t ∧ Agree .cfg s t ∧ Agree .straps s t ∧ Agree .run s t) ∧
      (∀ m, s.tb.lastPulse = some m →
        ∃ t, exec (.referencePulse p) s = .next t ∧ t.tb.refLost = false ∧ t.tb.watchFrom = s.clock + p.dt ∧
          t.tb.counter = (if 2 * (s.clock + p.dt - m) < nominalPeriod s.config.rate then s.tb.counter else s.tb.counter + 1) ∧
          Announced s t (.lock ⟨.refReturned, none, s.tb.lock, s.tb.source, false, s.tb.followed, t.tb.counter, 0, s.tb.slipCount,
            s.tb.lastSlip, none⟩) ∧
          Agree .live s t ∧ Agree .cfg s t ∧ Agree .straps s t ∧ Agree .run s t))

/-- 1.5 nominal periods without a reference pulse taken (R53): REF_LOST is set, the source role ends (R67), one LOCK notice goes out
with cause REF_LOST, and at a source with INELIGIBLE beside it, and a flywheel pulse counts at once. -/
def Obligations.ReferenceLost : Prop :=
  ∀ (s : State) (p : Pulse), s.run = .run → s.tb.refLost = false →
    3 * nominalPeriod s.config.rate ≤ 2 * (s.clock + p.dt - s.tb.watchFrom) →
    ∃ t, exec (.refLost p) s = .next t ∧ t.tb.refLost = true ∧ t.tb.counter = s.tb.counter + 1 ∧ t.tb.source = false ∧
      t.tb.lastPulse = some (s.clock + p.dt) ∧ Agree .live s t ∧ Agree .cfg s t ∧ Agree .straps s t ∧ Agree .run s t ∧
      ∃ l : LockNotice, Announced s t (.lock l) ∧ l.cause = .refLost ∧
        l.also = (if s.tb.source then some .ineligible else none) ∧ l.lock = s.tb.lock ∧ l.source = false ∧ l.refLost = true

/-- The timers of the lock state at their limits (R62): SILENCE, ACQUIRE_TIMEOUT and HOLDOVER_EXPIRED, each with the notice
posted. -/
def Obligations.LockTimersExpire : Prop :=
  ∀ s : State, s.run = .run →
    (s.tb.lock = .locked → s.tb.source = false → 48 ≤ s.tb.silence →
      ∃ t, exec .silence s = .next t ∧ t.tb = { s.tb with lock := .holdover, holdover := 0, followed := none } ∧
        SameBut [.tb, .out, .port] s t ∧
        ∃ l : LockNotice, t.port = s.port.post (.lock l) ∧ l.cause = .silence ∧ l.lock = .holdover) ∧
    (s.tb.lock = .acquiring → 48 ≤ s.tb.silence →
      ∃ t, exec .acquireTimeout s = .next t ∧ t.tb = { s.tb with lock := .free, agree := 0, followed := none } ∧
        SameBut [.tb, .out, .port] s t ∧
        ∃ l : LockNotice, t.port = s.port.post (.lock l) ∧ l.cause = .acquireTimeout ∧ l.lock = .free) ∧
    (s.tb.lock = .holdover → 1024 ≤ s.tb.holdover →
      ∃ t, exec .holdoverExpired s = .next t ∧ t.tb = { s.tb with lock := .free, holdover := 0 } ∧ t.usable = false ∧
        SameBut [.tb, .out, .port, .store, .sched, .pair] s t ∧
        ∃ l : LockNotice, Announced s t (.lock l) ∧ l.cause = .holdoverExpired ∧ l.lock = .free)

/-- What a frame pulse counts, whatever order its blocks act in (log 2), short of each limit: the mark silence and the holdover count
(R62), the silence of each present peer (R155), the joining count (R151), the ask wait (R163), the ask retry (R164), the response
wait (R166), the gap (R173) and the yield count (R184). -/
def Obligations.FramePulseCounts : Prop :=
  ∀ (s : State) (c : Instr) (p : Pulse), s.pulsed c p →
    ∃ t, exec c s = .next t ∧ t.tb.counter = s.tb.counter + 1 ∧
      t.tb.silence = (if s.tb.source then s.tb.silence else min (s.tb.silence + 1) 65535) ∧
      (s.tb.lock = .holdover → s.tb.holdover + 1 < 1024 → t.tb.source = false → t.tb.lock = .holdover ∧
        t.tb.holdover = s.tb.holdover + 1) ∧
      (∀ n, (s.peer n).present = true → (s.peer n).silence + 1 < 30 →
        t.peer n = { s.peer n with silence := (s.peer n).silence + 1 }) ∧
      (∀ n, (s.peer n).present = false → t.peer n = s.peer n) ∧
      (s.sync.step = .joining → s.sync.joinCount + 1 < 30 → t.sync = { s.sync with joinCount := s.sync.joinCount + 1 }) ∧
      (s.sync.step = .outOfStep → s.sync.askWait + 1 < 2 + 3 * (s.straps.number.val % 8) →
        t.sync = { s.sync with askWait := s.sync.askWait + 1 }) ∧
      (s.sync.step = .catchingUp → s.sync.phase = .awaiting → s.sync.ask = .out → s.sync.askRetry + 1 < 20 →
        t.sync = { s.sync with askRetry := s.sync.askRetry + 1 }) ∧
      (s.sync.step = .catchingUp → s.sync.phase = .receiving → (∀ k, s.sync.count = some k → s.sync.expected ≤ k + 1) →
        s.sync.gap + 1 < 11 → t.sync = { s.sync with gap := s.sync.gap + 1 }) ∧
      (∀ k, s.sync.step = .inStep → s.sync.responder = .waiting → s.sync.wait = some (k + 2) →
        t.sync = { s.sync with wait := some (k + 1) }) ∧
      (s.pair.role = .active → s.pair.yield = .pending → s.pair.yieldCount + 1 < 30 →
        t.pair.yield = .pending ∧ t.pair.yieldCount = s.pair.yieldCount + 1)

/-- The election (R64) and the MARK due (R65), at a frame pulse. A station that is not source, capable, its reference present, not
muted, usable or with no peer LOCKED, silent for 48 pulses and with no eligible peer of a lower number becomes source: LOCKED, its
counter only raised, with a LOCK notice ELECTED; the timebase unit acts first there (log 2), so that the roster is the one before
the pulse. Short of 48 pulses none does. A source queues a MARK where the new count is a multiple of 16, unless one waits or the
queue is full, which the line record counts. -/
def Obligations.ElectionAndMarkDue : Prop :=
  ∀ (s : State) (c : Instr) (p : Pulse), s.pulsed c p →
    ∃ t, exec c s = .next t ∧
      (s.tb.source = false → s.tb.silence + 1 < 48 → t.tb.source = false) ∧
      (∀ o, p.order = .timebase :: o → s.tb.source = false → s.straps.timeCapable = true → s.tb.refLost = false →
        s.line.muted = false → (s.usable = true ∨ ∀ n x, s.presentPeer n = some x → x.lock ≠ .locked) →
        (s.tb.lock = .holdover → s.tb.holdover + 1 < 1024) → 48 ≤ s.tb.silence + 1 →
        (∀ n, n < s.straps.number → s.peerEligible n = false) →
        t.tb = { s.tb with
          counter := s.tb.counter + 1, lastPulse := some (s.clock + p.dt), watchFrom := s.clock + p.dt, source := true,
          lock := .locked, agree := 0, holdover := 0, followed := none, silence := min (s.tb.silence + 1) 65535 } ∧
        (∃ l : LockNotice, Announced s t (.lock l) ∧ l.cause = .elected ∧ l.lock = .locked ∧ l.source = true) ∧
        ((s.tb.counter + 1).toNat % 16 = 0 → (∀ m ∈ s.line.urgent, m.msg.isMark = false) → s.line.urgent.length < 4 →
          t.line.urgent = s.line.urgent ++ [⟨.mark (s.tb.counter + 1), 0, false⟩])) ∧
      (s.tb.source = true → (s.tb.counter + 1).toNat % 16 = 0 → s.line.muted = false → s.line.transmitting = false →
        ((∀ m ∈ s.line.urgent, m.msg.isMark = false) → s.line.urgent.length < 4 →
          t.line.urgent = s.line.urgent ++ [⟨.mark (s.tb.counter + 1), 0, false⟩]) ∧
        ((∀ m ∈ s.line.urgent, m.msg.isMark = false) → 4 ≤ s.line.urgent.length → t.line.urgent = s.line.urgent ∧
          t.line.record.markSkipped = bump s.line.record.markSkipped) ∧
        ((∃ m ∈ s.line.urgent, m.msg.isMark = true) → t.line.urgent = s.line.urgent))

/-- What else falls due at a frame pulse. A PRESENCE where the new count and the station number agree modulo 10 (R142): one that
waits is refreshed in its place, else a new one joins the ROUTINE queue, or is skipped and counted; its contents are those found
where the line controller acts first (log 2), and of two that wait the first is refreshed, the model's choice (log 21). A press on
an input whose line is FLASH (R103, R104) where the output unit acts first: a READY with its item, or the reason against it, and a
READY notice; of several reasons the notice gives STANDBY, else MUTED, the model's choice (log 31). BACKTIME where the over/under
changes its sign (R122). -/
def Obligations.DueAtFramePulse : Prop :=
  ∀ (s : State) (c : Instr) (p : Pulse), s.pulsed c p →
    ∃ t, exec c s = .next t ∧
      (∀ o, p.order = .line :: o → s.line.muted = false → (s.tb.counter + 1).toNat % 10 = s.straps.number.val % 10 →
        ((∀ m ∈ s.line.routine, m.msg.isPresence = false) → s.line.routine.length < 8 →
          s.line.routine ++ [⟨.presence s.presence, 0, false⟩] <+: t.line.routine) ∧
        ((∀ m ∈ s.line.routine, m.msg.isPresence = false) → 8 ≤ s.line.routine.length →
          t.line.routine = s.line.routine ∧ t.line.record.presenceSkipped = bump s.line.record.presenceSkipped) ∧
        (∀ a x k w b, s.line.routine = a ++ ⟨.presence x, k, w⟩ :: b → (∀ m ∈ a, m.msg.isPresence = false) →
          s.line.sendsFrom .routine = false → a ++ ⟨.presence s.presence, k, w⟩ :: b <+: t.line.routine)) ∧
      (∀ o (i : Fin 4) line last, p.order = .output :: o → s.config.readyMap[i] = some line → s.out.lights[line] = .flash →
        s.out.samples = some last → last[i] = false → p.pressed[i] = true → (∀ j, j ≠ i → p.pressed[j] = false) →
        (s.pair.role ≠ .standby → s.line.muted = false → s.line.routine.length < 8 →
          Announced s t (.ready i line (s.readyItem line) (s.tb.counter + 1) none) ∧
          ((s.tb.counter + 1).toNat % 10 ≠ s.straps.number.val % 10 ∨
              (∀ m ∈ s.line.routine.drop (if s.line.sendsFrom .routine then 1 else 0), m.msg.isPresence = false) →
            s.line.routine ++ [⟨.ready line (s.readyItem line), 0, false⟩] <+: t.line.routine)) ∧
        (s.pair.role = .standby → Announced s t (.ready i line (s.readyItem line) (s.tb.counter + 1) (some .standby))) ∧
        (s.pair.role ≠ .standby → s.line.muted = true →
          Announced s t (.ready i line (s.readyItem line) (s.tb.counter + 1) (some .muted))) ∧
        (s.pair.role ≠ .standby → s.line.muted = false → 8 ≤ s.line.routine.length →
          Announced s t (.ready i line (s.readyItem line) (s.tb.counter + 1) (some .queueFull)))) ∧
      (let x := s.timing.projection
       let now := s.tb.counter + 1
       t.timing.sign = signOf (x.overUnder now) ∧ (t.timing.sign ≠ s.timing.sign →
         Announced s t (.backtime t.timing.sign (x.overUnder now) (x.endFrame now) x.hardOut now true)))

/-- A start delimiter detected in RUN captures the counter for a mark (R56). A mark from another station (R57, R66): one that is
taken corrects the counter by the difference, its sender is followed, the silence ends, and a source yields: it stays LOCKED at a
difference of 0 or one frame, a slip then counted, and else is ACQUIRING, its waiting MARK goes, and one LOCK notice YIELDED says
so. A source takes none from a number above its own, a follower none from a number above the one it follows: such a mark changes
nothing, the silence count included. -/
def Obligations.MarkCapturedTakenOrIgnored : Prop :=
  (∀ (s : State) (dt : Nat), s.run = .run →
    exec (.markCapture dt) s = .next { s with
      clock := s.clock + dt
      tb := { s.tb with capture := some s.tb.counter }
      line := { s.line with rx := if s.line.transmitting then .own else .inRun } }) ∧
  ∀ (s : State) (dt : Nat) (rx : Reception) (n : StationNo) (b : Byte) (f cap : Frame), s.hears rx n b (.mark f) →
    s.tb.capture = some cap →
    ((s.tb.source = true → n < s.straps.number) → (s.tb.source = false → ∀ g, s.tb.followed = some g → n ≤ g) →
      ∃ t, exec (.receiveMark dt rx) s = .next t ∧ t.tb.counter = s.tb.counter + (f - cap) ∧ t.tb.followed = some n ∧
        t.tb.silence = 0 ∧ t.tb.source = false ∧ Agree .live s t ∧ Agree .roster s t ∧ Agree .sync s t ∧ Agree .apply s t ∧
        (s.tb.source = true → LockPosted s t .yielded (f - cap) ∧
          (s.line.transmitting = false → ∀ m ∈ t.line.urgent, m.msg.isMark = false) ∧
          (s.tb.lock = .locked →
            (f = cap → t.tb.lock = .locked ∧ t.tb.slipCount = s.tb.slipCount ∧ t.tb.lastSlip = s.tb.lastSlip) ∧
            (f - cap = 1 ∨ f - cap = -1 → t.tb.lock = .locked ∧ t.tb.slipCount = min (s.tb.slipCount + 1) 65535 ∧
              t.tb.lastSlip = some (f - cap, t.tb.counter)) ∧
            (f - cap ≠ 0 → f - cap ≠ 1 → f - cap ≠ -1 → t.tb.lock = .acquiring ∧ t.tb.agree = 0 ∧ t.usable = false ∧
              t.tb.slipCount = s.tb.slipCount ∧ t.tb.lastSlip = s.tb.lastSlip)))) ∧
    ((s.tb.source = true ∧ s.straps.number < n ∨ s.tb.source = false ∧ ∃ g, s.tb.followed = some g ∧ g < n) →
      ∃ t, exec (.receiveMark dt rx) s = .next t ∧ SameBut [.clock, .out, .line] s t)

/-- A taken mark with difference d in each lock state (R58 to R61): in FREE it loads the counter, and the station is ACQUIRING with
agree count 0; agreement locks at the second; a difference of one frame is a slip in LOCKED and HOLDOVER, and any other reloads the
counter. -/
def Obligations.MarkInEachState : Prop :=
  ∀ (s : State) (dt : Nat) (rx : Reception) (n : StationNo) (b : Byte) (f cap : Frame), s.hears rx n b (.mark f) →
    s.tb.capture = some cap → s.tb.source = false → (∀ g, s.tb.followed = some g → n ≤ g) →
    ∃ t, exec (.receiveMark dt rx) s = .next t ∧ t.tb.counter = s.tb.counter + (f - cap) ∧
      (s.tb.lock = .free → t.tb.lock = .acquiring ∧ t.tb.agree = 0 ∧ t.tb.slipCount = s.tb.slipCount ∧
        t.tb.lastSlip = s.tb.lastSlip ∧
        ∃ l : LockNotice, t.port = s.port.post (.lock l) ∧ l.cause = .markLoad ∧ l.correction = f - cap) ∧
      (s.tb.lock = .acquiring → f = cap → s.tb.agree + 1 < 2 → Agree .port s t ∧
        t.tb = { s.tb with followed := some n, silence := 0, agree := s.tb.agree + 1 }) ∧
      (s.tb.lock = .acquiring → f = cap → 2 ≤ s.tb.agree + 1 → t.tb.lock = .locked ∧ t.tb.agree = 0 ∧ t.usable = true ∧
        LockPosted s t .acquired 0) ∧
      (s.tb.lock = .acquiring → f ≠ cap → t.tb.lock = .acquiring ∧ t.tb.agree = 0 ∧ t.tb.slipCount = s.tb.slipCount ∧
        t.tb.lastSlip = s.tb.lastSlip ∧ LockPosted s t .reacquire (f - cap)) ∧
      (s.tb.lock = .locked → f = cap → Agree .port s t ∧ t.tb = { s.tb with followed := some n, silence := 0 }) ∧
      (s.tb.lock = .locked → f - cap = 1 ∨ f - cap = -1 → t.tb.lock = .locked ∧ t.usable = true ∧
        t.tb.slipCount = min (s.tb.slipCount + 1) 65535 ∧ t.tb.lastSlip = some (f - cap, t.tb.counter) ∧
        LockPosted s t .slip (f - cap)) ∧
      (s.tb.lock = .holdover → t.tb.holdover = 0) ∧
      (s.tb.lock = .holdover → f = cap → t.tb.lock = .locked ∧ t.usable = true ∧ LockPosted s t .relocked 0) ∧
      (s.tb.lock = .holdover → f - cap = 1 ∨ f - cap = -1 → t.tb.lock = .locked ∧ t.usable = true ∧
        t.tb.slipCount = min (s.tb.slipCount + 1) 65535 ∧ t.tb.lastSlip = some (f - cap, t.tb.counter) ∧
        LockPosted s t .relocked (f - cap)) ∧
      (s.tb.lock = .locked ∨ s.tb.lock = .holdover → f - cap ≠ 0 → f - cap ≠ 1 → f - cap ≠ -1 → t.tb.lock = .acquiring ∧ t.tb.agree = 0 ∧
        t.usable = false ∧ LockPosted s t .reacquire (f - cap))

/-! ## Cue scheduler, output unit and timing unit (chapters 4 to 6) -/

/-- The scheduler's rules of a frame pulse, each given alone (log 3): a recovery ends at its recovery-until (R77); while gallery
time is not usable the entries of the most recently DONE item are cancelled once the counter reaches its end frame (R90); its shadow
records leave then, and the overflow mark with the last of them (R189). That the cancellation, given alone, leaves the records to
the frame pulse is the model's choice (log 41). -/
def Obligations.SchedulerTimers : Prop :=
  ∀ s : State, s.run = .run →
    (∀ (r : Fin 16) (f : Frame), s.sched.resources[r].state = .recovering → s.sched.resources[r].recoveryUntil = some f →
      atOrAfter s.now f →
      ∃ t, exec (.recoveryEnds r) s = .next t ∧ SameBut [.sched] s t ∧
        t.sched = { s.sched with resources := s.sched.resources.set r { s.sched.resources[r] with state := .idle } }) ∧
    (∀ (id : ItemId) (f : Frame), s.sched.lastDone = some (id, f) → s.usable = false → atOrAfter s.now f →
      ∃ t, exec .itemEndCancel s = .next t ∧ SameBut [.sched, .out, .port] s t ∧ (∀ e ∈ t.sched.armed, e.item ≠ id) ∧
        (∀ e ∈ s.sched.armed, e.item ≠ id → e ∈ t.sched.armed) ∧ t.sched.shadowList = s.sched.shadowList) ∧
    (∀ (id : ItemId) (f : Frame), s.sched.lastDone = some (id, f) → atOrAfter s.now f →
      ∃ t, exec .shadowRecordsExpire s = .next t ∧ SameBut [.sched] s t ∧
        t.sched.shadowList = s.sched.shadowList.filter (fun r => decide (r.item ≠ id)) ∧
        t.sched.overflow = (s.sched.overflow && !t.sched.shadowList.isEmpty) ∧ t.sched.armed = s.sched.armed)

/-- A scan (R84, R187): with gallery time not usable only real time passes; else a driving station's done-through frame becomes
now and a STANDBY's stays. The one entry of a table, a FIRE cue whose fire frame has come and whose end has not, starts: it
is notified, its resource is BUSY in its name with that start as its last fire (R76, R77, R86), a BUSY or RECOVERING one taken over,
the model's reading (log 15). Its FIRE goes out, or, in SHADOW on a resource without mirror, is withheld (R188), the entry counting as
notified all the same, the model's choice (log 46). -/
def Obligations.ScanActs : Prop :=
  ∀ (s : State) (dt : Nat), s.run = .run →
    (s.usable = false → ∃ t, exec (.scan dt) s = .next t ∧ Idle s t dt) ∧
    (s.usable = true → ∃ t, exec (.scan dt) s = .next t ∧ SameBut [.clock, .sched, .out, .port] s t ∧
      t.sched.doneThrough = (if s.pair.role = .standby then s.sched.doneThrough else some s.now)) ∧
    (∀ (e : Entry) (r : Fin 16) (hard : Bool) (len : Option Lengths) (g : Frame), s.usable = true → s.sched.armed = [e] →
      e.cue.body = .fire r hard len → e.fire = some s.now → e.state = .armed ∨ e.state = .prepared → e.endFrame = some g →
      later g s.now → (s.config.resources[r]).advance ≤ 15 →
      ∃ t x, exec (.scan dt) s = .next t ∧ t.sched.armed = [x] ∧ x.item = e.item ∧ x.cue = e.cue ∧ x.state = .running ∧
        x.notified = true ∧ t.sched.resources[r] =
          ⟨.busy, some (e.item, e.cue.slot), some s.now, some (g + BitVec.ofNat 32 (s.config.resources[r]).recovery.toNat)⟩ ∧
        t.sched.groups[(s.config.resources[r]).group] = some (s.now, r) ∧
        (e.notified = false → e.prepare = none → x.withheld = !s.shown e ∧ (s.shown e = false → Agree .port s t) ∧
          (s.shown e = true → ∃ len flags deferral join,
            t.port = s.port.post (.fire e.item e.cue.slot (some r) s.now len flags deferral join e.cue.param))))

/-- The pins (R69, R99, R110 to R112): none but the caution line is high in STANDBY or outside RUN; then a light line shows ON, or
FLASH in the lit half of each second, and the caution line warns of a station out of step, unlocked or muted. The output and timing
units' own moments. A kept pip whose frame has come starts while gallery time is usable (R108), its square wave high at first
(R107), and a pip stops when its length has run out (R106, R107). The wrap timer (R118), `r` being the ending item's record, or the
on-air item's when there is none: at its warn point the claim is FLASH, at its expiry ON; the ending record goes at its end frame,
and the claim is worked out anew. -/
def Obligations.PinsPipsAndWrapPoints : Prop :=
  (∀ s : State,
    (∀ l : Fin 8, s.lightPin l = true ↔ s.run = .run ∧ s.pair.role ≠ .standby ∧
      (s.out.lights[l] = .on ∨ s.out.lights[l] = .flash ∧ 2 * (s.now.toNat % s.second) < s.second)) ∧
    (∀ l : Fin 2, s.run ≠ .run ∨ s.pair.role = .standby → s.pipPin l = false ∧ s.levelPin l = false) ∧
    (s.changeoverPin = true ↔ s.run = .run ∧ s.pair.role ≠ .standby) ∧
    (s.cautionPin = true ↔ s.run = .run ∧
      (s.sync.step ≠ .inStep ∨ s.tb.lock = .free ∨ s.tb.lock = .acquiring ∨ s.line.muted = true))) ∧
  (∀ (s : State) (dt : Nat) (line : Fin 2) (p : Playing), s.run = .run → s.out.pips[line] = some p →
    (∀ x rest, s.usable = true → p.waiting = x :: rest → atOrBefore x.frame s.now → (∀ y ∈ rest, later y.frame s.now) →
      ∃ t, exec (.pipStarts dt line) s = .next t ∧ SameBut [.clock, .out] s t ∧ t.clock = s.clock + dt ∧
        t.out = s.out.setPip line (some { p with waiting := rest, sounding := some ⟨x, s.clock + dt⟩ }) ∧
        t.pipPin line = s.shows ∧ t.levelPin line = (s.shows && x.long)) ∧
    (∀ x, p.sounding = some x → (if x.pip.long then 500 else 100) * millisecond ≤ s.clock + dt - x.since →
      ∃ t, exec (.pipEnds dt line) s = .next t ∧ SameBut [.clock, .out] s t ∧ t.clock = s.clock + dt ∧
        t.out = s.out.setPip line (if p.waiting = [] then none else some { p with sounding := none }) ∧
        t.pipPin line = false ∧ t.levelPin line = false)) ∧
  ∀ s : State, s.run = .run →
    (∀ r, (if s.timing.ending.isSome then s.timing.ending else s.timing.onAir) = some r →
      (0 ≤ (r.elapsed s.now).toInt → (r.used.toNat : Int) - s.config.wrapLead.toNat ≤ (r.elapsed s.now).toInt →
        (r.elapsed s.now).toInt < r.used.toNat →
        ∃ t, exec .warnPoint s = .next t ∧ SameBut [.timing, .out] s t ∧ t.timing.wrapClaim = .flash ∧
          t.timing.wrapItem = some r.item ∧ t.timing.projection = s.timing.projection ∧
          ∀ l, s.config.wrapLine = some l → s.usable = true → t.out.lights[l] = .flash) ∧
      ((r.used.toNat : Int) ≤ (r.elapsed s.now).toInt →
        ∃ t, exec .expiryPoint s = .next t ∧ SameBut [.timing, .out] s t ∧ t.timing.wrapClaim = .on ∧
          t.timing.wrapItem = some r.item ∧ t.timing.projection = s.timing.projection ∧
          ∀ l, s.config.wrapLine = some l → s.usable = true → t.out.lights[l] = .on)) ∧
    (∀ r f, s.timing.ending = some r → r.endFrame = some f → atOrAfter s.now f →
      ∃ t, exec .endingRecordDropped s = .next t ∧ SameBut [.timing, .out] s t ∧ t.timing.ending = none ∧
        t.timing.onAir = s.timing.onAir ∧ t.timing.projection = s.timing.projection ∧
        t.timing.wrapClaim = (match s.timing.onAir with
          | some x => x.wrapState s.config.wrapLead s.now
          | none => .off))

/-! ## Roster, sync engine and pair monitor (chapters 8 to 10) -/

/-- At 30 pulses of silence a PRESENT entry falls ABSENT and keeps its contents (R155): PEER is posted; of the partner the
fitness record is cleared (R180), after the PEER notice (log 9). A STANDBY member, not JOINING, then takes over with the cause
PARTNER_ABSENT where it is fit (R181), and is blocked where it is not, which it says once (R182). -/
def Obligations.PeerFallsAbsent : Prop :=
  ∀ (s : State) (n : StationNo), s.run = .run → (s.peer n).present = true → 30 ≤ (s.peer n).silence →
    let told := s.port.post (.peer n false s.now (s.peer n).contents)
    ∃ t, exec (.peerAbsent n) s = .next t ∧ t.peer n = { s.peer n with present := false } ∧
      (∀ m, m ≠ n → t.peer m = s.peer m) ∧ Agree .live s t ∧ Agree .tb s t ∧ Agree .line s t ∧ Agree .sync s t ∧
      Posted told t ∧
      (s.config.partner ≠ some n → SameBut [.roster, .port, .out] s t) ∧
      (s.config.partner = some n → t.pair.fitness = [] ∧
        (s.config.pairMode ≠ .none → s.pair.role = .standby → s.sync.step ≠ .joining →
          (s.fit = true → t.pair.role = .active ∧ t.pair.blocked = false ∧ t.changeoverPin = true ∧
            Announced s t (.role .active .standby .partnerAbsent s.now (some n) false s.partnerDone)) ∧
          (s.fit = false → BlockedBy s t told .partnerAbsent false ((s.peer n).contents.map (·.role)))) ∧
        (s.config.pairMode = .none ∨ s.pair.role ≠ .standby ∨ s.sync.step = .joining →
          SameBut [.roster, .pair, .port, .out] s t ∧ t.port = told ∧ t.pair = { s.pair with fitness := [] }))

/-- The limits of joining and asking (R151, R163, R164): a station founds the rundown; it asks, and is CATCHING_UP; it asks again,
or refounds where no peer is in step and the order of R157 would choose it. That the STEP notice comes before what a change of step
brings besides is the model's choice (log 9). -/
def Obligations.JoiningAndAsking : Prop :=
  ∀ s : State, s.run = .run →
    (s.sync.step = .joining → 30 ≤ s.sync.joinCount →
      ∃ t, exec .founded s = .next t ∧ t.sync.step = .inStep ∧ Agree .live s t ∧ Agree .tb s t ∧ Agree .roster s t ∧
        Posted (s.port.post (.step .inStep .joining .founded s.store.summary)) t) ∧
    (s.sync.step = .outOfStep → 2 + 3 * (s.straps.number.val % 8) ≤ s.sync.askWait → s.line.muted = false →
      s.line.routine.length < 8 →
      ∃ t, exec .askWaitExpires s = .next t ∧ t.sync.step = .catchingUp ∧ t.sync.ask = .queued ∧ t.sync.phase = .awaiting ∧
        t.line.routine = s.line.routine ++ [⟨.ask, 0, false⟩] ∧
        Posted (s.port.post (.step .catchingUp .outOfStep .asked s.store.summary)) t ∧
        SameBut [.sync, .line, .port, .pair, .out] s t) ∧
    (s.sync.step = .catchingUp → s.sync.phase = .awaiting → s.sync.ask = .out → 20 ≤ s.sync.askRetry →
      ((∃ n, s.peerInStep n = true) ∨ (∀ x, s.wouldBeChosen = some x → x.1 ≠ s.straps.number)) → s.line.muted = false →
      s.line.routine.length < 8 →
      ∃ t, exec .askRetryExpires s = .next t ∧ t.sync = { s.sync with ask := .queued } ∧
        t.line.routine = s.line.routine ++ [⟨.ask, 0, false⟩] ∧ SameBut [.sync, .line, .out] s t) ∧
    (s.sync.step = .catchingUp → s.sync.phase = .awaiting → s.sync.ask = .out → 20 ≤ s.sync.askRetry →
      (∀ n, s.peerInStep n = false) → (∃ x, s.wouldBeChosen = some x ∧ x.1 = s.straps.number) →
      ∃ t, exec .askRetryExpires s = .next t ∧ t.sync.step = .inStep ∧ Agree .live s t ∧
        Posted (s.port.post (.step .inStep .catchingUp .refounded s.store.summary)) t)

/-- The limits of a stream: a response wait run out offers the opening (R166), the wait then absent, the model's choice (log 32),
and a gap of 11 pulses abandons a catch-up, its ordered messages and its SHADOW (R173, R175), its STEP notice first (log 9). -/
def Obligations.StreamTimers : Prop :=
  ∀ s : State, s.run = .run →
    (s.sync.responder = .waiting → s.sync.wait = some 0 → s.line.muted = false → s.line.bulk.length < 2 →
      ∃ t, exec .responseWaitExpires s = .next t ∧ t.sync = { s.sync with responder := .opening, wait := none } ∧
        t.line.bulk = s.line.bulk ++ [⟨.part 0 [], 0, false⟩] ∧ SameBut [.sync, .line] s t) ∧
    (s.sync.step = .catchingUp → s.sync.phase = .receiving → 11 ≤ s.sync.gap →
      ∃ t, exec .gapTimeout s = .next t ∧ t.sync.step = .outOfStep ∧ t.sync.phase = .awaiting ∧ t.sync.source = none ∧
        t.sync.buffer = [] ∧ t.sync.askWait = 0 ∧ t.store.shadow = .empty ∧ t.store.use ≠ .assembling ∧
        t.apply.holding = false ∧ (s.store.holder ≠ some .apply → ∀ e ∈ t.apply.queue, e.isOrdered = false) ∧ Agree .live s t ∧
        Posted (s.port.post (.step .outOfStep .catchingUp (.abandoned .gapTimeout s.sync.source s.sync.written s.sync.count)
          s.store.summary)) t)

/-- A yield without the partner's takeover for 30 pulses has failed (R184). A YIELD of the partner makes a fit STANDBY ACTIVE, with
the changeover line; one that is not fit is blocked and says so once (R182, R185); any other YIELD is ignored. That the count of a
yield that has failed is 0 is the model's choice (log 40). -/
def Obligations.YieldTimesOutAndTakesOver : Prop :=
  (∀ s : State, s.run = .run → s.pair.yield = .pending → 30 ≤ s.pair.yieldCount →
    ∃ t, exec .yieldFailed s = .next t ∧ SameBut [.pair, .port] s t ∧
      t.pair = { s.pair with yield := .none, yieldCount := 0 } ∧
      t.port = s.port.post (.yieldFailed s.config.partner s.partnerPresent (s.partnerContents.map (·.role)))) ∧
  ∀ (s : State) (dt : Nat) (rx : Reception) (n : StationNo) (b : Byte), s.hears rx n b .yield →
    (s.config.pairMode ≠ .none → s.config.partner = some n → s.pair.role = .standby → s.fit = true →
      ∃ t, exec (.receiveYield dt rx) s = .next t ∧ t.pair.role = .active ∧ t.pair.blocked = false ∧ t.changeoverPin = true ∧
        Announced s t (.role .active .standby .yieldReceived s.now (some n) (s.peer n).present s.partnerDone) ∧
        Agree .live s t ∧ Agree .sync s t ∧ Agree .tb s t ∧ Agree .roster s t) ∧
    (s.config.pairMode ≠ .none → s.config.partner = some n → s.pair.role = .standby → s.fit = false →
      ∃ t, exec (.receiveYield dt rx) s = .next t ∧ t.pair = { s.pair with blocked := true } ∧
        BlockedBy s t s.port .yieldReceived (s.peer n).present ((s.peer n).contents.map (·.role)) ∧
        SameBut [.clock, .line, .pair, .port, .out] s t) ∧
    (s.config.pairMode = .none ∨ s.config.partner ≠ some n ∨ s.pair.role ≠ .standby →
      ∃ t, exec (.receiveYield dt rx) s = .next t ∧ SameBut [.clock, .line, .out] s t)

/-! ## The cue line, sending (chapter 7) -/

/-- With the line idle for 96 bit times, no attempt in course and no back-off, the message in flight is attempted (R132), where what
it needs of the apply queue is free (R131), so that the queue with its reservation stays within 8 (R22). A back-off that has run
out goes first (R134). The idle time is an operand (log 22). -/
def Obligations.AttemptBegins : Prop :=
  ∀ (s : State) (dt idle : Nat) (c : TxClass) (m : TxMsg) (q : List TxMsg), s.run = .run → s.line.transmitting = false →
    96 ≤ idle → 96 * bitTime ≤ s.clock + dt → s.line.flight = some c → s.line.queue c = m :: q →
    (m.msg.needsPlace = true → 0 < s.apply.freePlaces) →
    (s.line.backoff = none → ∃ t, exec (.transmitAttempt dt idle) s = .next t ∧ Attempted s t dt c m q ∧
      (s.apply.within → t.apply.within)) ∧
    (∀ b, s.line.backoff = some b → b.since + b.slots * slotTime ≤ s.clock + dt →
      ∃ t, exec (.backoffExpires dt idle) s = .next t ∧ Attempted s t dt c m q ∧ (s.apply.within → t.apply.within))

/-- A collision in the contention window (R133): the station drives the jam, whose pattern is nobody's (log 29), to its end (log
22), the collision is counted and a reservation released. Before the sixteenth attempt the attempt is counted and a back-off of
(class offset) + ((n + k + f) modulo 32) slots waits from the end of the jam (R134). At the sixteenth the message is given up
(R135): it leaves its queue and the line record counts it by kind; SEND_FAILED names it unless it is a PRESENCE, a MARK or a PART;
an ASK given up ends the catch-up that is AWAITING (R164), one left from an earlier catch-up included, the model's choice (log 32),
a YIELD the yield (R184), one left over from a stand-down included, the model's reading (log 35). -/
def Obligations.CollisionBacksOffOrGivesUp : Prop :=
  ∀ (s : State) (dt : Nat) (c : TxClass) (m : TxMsg) (q : List TxMsg), s.run = .run → s.line.transmitting = true →
    s.clock + dt ≤ s.line.attemptAt + 64 * bitTime → s.line.flight = some c → s.line.queue c = m :: q →
    m.withdrawn = false →
    ∃ t, exec (.collision dt) s = .next t ∧ Agree .live s t ∧ Agree .tb s t ∧ Agree .roster s t ∧
      t.clock = s.clock + dt + 32 * bitTime ∧ t.line.transmitting = false ∧ t.line.driven = le32 Config.jamPattern ∧
      t.line.rx = .none ∧ t.apply.reserved = false ∧
      (m.attempts + 1 < 16 → SameBut [.clock, .line, .apply, .out] s t ∧ t.apply = { s.apply with reserved := false } ∧
        t.line.record = { s.line.record with collisions := bump s.line.record.collisions } ∧ t.line.flight = some c ∧
        t.line.queue c = { m with attempts := m.attempts + 1 } :: q ∧ (∀ d, d ≠ c → t.line.queue d = s.line.queue d) ∧
        t.line.backoff = some
          ⟨(match c with
            | .urgent => 0
            | .routine => 32
            | .bulk => 64) + (s.straps.number.val + (m.attempts + 1) + s.now.toNat) % 32, t.clock⟩) ∧
      (15 ≤ m.attempts → t.line.backoff = none ∧ (m.msg.isPart = false → t.line.queue c = q) ∧
        t.line.record = ({ s.line.record with collisions := bump s.line.record.collisions } : LineRecord).giveUp m.msg ∧
        (m.msg.isPresence = false → m.msg.isMark = false → m.msg.isPart = false →
          Posted (s.port.post (.sendFailed m.msg .attempts)) t) ∧
        (m.msg = .ask → s.sync.step = .catchingUp → s.sync.phase = .awaiting → t.sync.step = .outOfStep) ∧
        (∀ p, m.msg = .yield p → t.pair.yield = .none))

/-- A transmission completes (R136): the message leaves, its reservation with it. An ordered message of an IN_STEP station joins its
own apply queue (R24), a PRESENCE becomes the one last sent (R156), an ASK is out, and the retry count starts at 0 unless a part 0
has been taken (R164), an ASK left from an earlier catch-up like the present one (log 32), an ACTIVE's YIELD waits for the takeover
(R184), one left over from a stand-down included (log 35), the opening of an empty queue brings the freeze copy (R167, R19), and a
PART the next one or the end (R168). The opening of a round abandoned while it was transmitting leaves its place without a copy
(R170). -/
def Obligations.TransmissionCompletes : Prop :=
  ∀ (s : State) (dt : Nat) (c : TxClass) (m : TxMsg) (q : List TxMsg), s.run = .run → s.line.transmitting = true →
    s.line.flight = some c → s.line.queue c = m :: q →
    ∃ t, exec (.transmissionComplete dt) s = .next t ∧ t.line.transmitting = false ∧ t.line.driven = [] ∧
      t.line.queue c = q ∧ (∀ d, d ≠ c → t.line.queue d = s.line.queue d) ∧ t.line.record = s.line.record ∧
      t.apply.reserved = false ∧ Agree .live s t ∧ Agree .tb s t ∧ Agree .sched s t ∧ Agree .port s t ∧
      (∀ n a, m.msg = .air n a → s.sync.step = .inStep → Joined s t (.ordered s.straps.number (.air n a))) ∧
      (∀ e, m.msg = .edit e → s.sync.step = .inStep → Joined s t (.ordered s.straps.number (.edit e))) ∧
      (∀ p, m.msg = .presence p → t.roster.lastSent = some (s.now, p)) ∧
      (m.msg = .ask → t.sync = { s.sync with
        ask := .out, askRetry := if s.sync.step = .catchingUp ∧ s.sync.phase = .awaiting then 0 else s.sync.askRetry }) ∧
      (∀ p, m.msg = .yield p → s.pair.role = .active → s.pair.yield = .queued → t.pair.yield = .pending ∧ t.pair.yieldCount = 0) ∧
      (∀ x, m.msg = .part 0 x → m.withdrawn = true ∨ s.sync.responder ≠ .opening → s.apply.queue = [] →
        s.store.holder = none → s.store.waitApply = none → t.apply.queue = [] ∧ Agree .sync s t ∧ Agree .store s t) ∧
      (∀ x, m.msg = .part 0 x → m.withdrawn = false → s.sync.responder = .opening → s.apply.queue = [] → s.store.use = .empty →
        s.store.holder = none → s.store.waitApply = none → t.sync.responder = .freezing ∧ t.apply.queue = [.marker false] ∧
          t.store.holder = some .freezeCopy ∧ t.store.use = .copying) ∧
      (∀ k x, m.msg = .part (k + 1) x → s.sync.responder = .sending → s.sync.nextPart = some (k + 1) →
        (k + 1 = s.store.shadow.items.length + 1 → s.sync.pendingAsk = false →
          t.store.use = .empty ∧ t.store.shadow = .empty ∧ t.sync.responder = .idle) ∧
        (k + 1 ≠ s.store.shadow.items.length + 1 → t.sync.nextPart = some (k + 2) ∧
          (s.store.holder = none → t.store.holder = some (.partRead (k + 2)))))

/-! ## The cue line, receiving -/

/-- An ordered message that is received (R23): in START it is discarded; so it is while JOINING and OUT_OF_STEP; in step it joins the
apply queue or, that being full, the station leaves step; a CATCHING_UP station queues it in its holding mode alone, and gives up
when that overflows. The queue with a reservation stays within 8 (R22). -/
def Obligations.OrderedMessageAdmitted : Prop :=
  (∀ (s : State) (dt : Nat) (rx : Reception), s.run = .start →
    ∃ t, exec (.receiveOrderedMessage dt rx) s = .next t ∧ SameBut [.clock, .line, .out] s t) ∧
  ∀ (s : State) (dt : Nat) (rx : Reception) (n : StationNo) (b : Byte) (m : Ordered), s.hears rx n b (.ordered m) →
    ∃ t, exec (.receiveOrderedMessage dt rx) s = .next t ∧ Agree .live s t ∧ Agree .tb s t ∧ Agree .roster s t ∧
      (s.apply.within → t.apply.within) ∧
      (s.sync.step = .joining ∨ s.sync.step = .outOfStep → SameBut [.clock, .line, .out] s t) ∧
      (s.sync.step = .catchingUp → s.apply.holding = false → SameBut [.clock, .line, .out] s t) ∧
      (s.sync.step = .inStep ∨ s.sync.step = .catchingUp ∧ s.apply.holding = true → 0 < s.apply.freePlaces →
        Joined s t (.ordered n m) ∧ t.sync.step = s.sync.step ∧ Agree .port s t ∧ Agree .sched s t) ∧
      (s.sync.step = .inStep → s.apply.freePlaces = 0 → t.sync.step = .outOfStep ∧
        Announced s t (.step .outOfStep .inStep .queueFull s.store.summary)) ∧
      (s.sync.step = .catchingUp → s.apply.holding = true → s.apply.freePlaces = 0 → t.sync.step = .outOfStep ∧
        t.apply.holding = false ∧ t.store.shadow = .empty)

/-- A PRESENCE that is heard (R154): the entry takes its contents, PRESENT, with silence 0; PEER is posted where the entry was not
PRESENT. A joining station that hears one in step leaves JOINING (R151): IN_STEP where the summary of the reference, `u` being the
state with the entry taken, is its own, else OUT_OF_STEP, each with its STEP notice. A payload of undefined values changes nothing.
The PEER notice comes before what else the PRESENCE brings, the model's choice (log 9). -/
def Obligations.PresenceTaken : Prop :=
  ∀ (s : State) (dt : Nat) (rx : Reception) (n : StationNo) (b : Byte) (p : List Byte), s.hears rx n b (.presence p) →
    (readPresence p = none → ∃ t, exec (.receivePresence dt rx) s = .next t ∧ SameBut [.clock, .line, .out] s t) ∧
    (∀ c, readPresence p = some c →
      ∃ t, exec (.receivePresence dt rx) s = .next t ∧ t.peer n = ⟨true, some c, some s.now, 0⟩ ∧
        (∀ m, m ≠ n → t.peer m = s.peer m) ∧ t.roster.lastSent = s.roster.lastSent ∧ Agree .live s t ∧ Agree .tb s t ∧
        ((s.peer n).present = false → Posted (s.port.post (.peer n true s.now (some c))) t) ∧
        (s.sync.step = .joining → c.step = .inStep → t.sync.step ≠ .joining ∧
          let u := { s with roster := s.roster.setPeer n ⟨true, some c, some s.now, 0⟩ }
          ∃ m r, u.reference = some (m, r) ∧
            (r = s.store.summary → t.sync.step = .inStep ∧
              Announced s t (.step .inStep .joining (.joinMatch m r) s.store.summary)) ∧
            (r ≠ s.store.summary → t.sync.step = .outOfStep ∧
              Announced s t (.step .outOfStep .joining (.joinMismatch m r) s.store.summary))))

/-- What a PRESENCE brings beside its roster entry; `u` is the state with the entry taken. In step with an empty apply queue the
station compares: where the reference is a peer of another summary it leaves step, else it stays (R161). Of the partner: an ACTIVE
that hears it ACTIVE or SOLO resolves the doubled role (R183), and where it stands down every entry goes to SHADOW, its done-through
frame is absent and its lines are dark (R192, R113); a STANDBY makes the takeover test, with the causes PARTNER_UNFIT and PREFERRED,
and where it is unfit it is blocked, which it says once (R180 to R182). -/
def Obligations.PresenceComparedAndJudged : Prop :=
  ∀ (s : State) (dt : Nat) (rx : Reception) (n : StationNo) (b : Byte) (p : List Byte) (c : Presence),
    s.hears rx n b (.presence p) → readPresence p = some c →
    let u := { s with roster := s.roster.setPeer n ⟨true, some c, some s.now, 0⟩ }
    ∃ t, exec (.receivePresence dt rx) s = .next t ∧
      (s.sync.step = .inStep →
        (s.apply.queue ≠ [] → t.sync.step = .inStep) ∧
        (∀ m r, u.reference = some (m, r) → m = s.straps.number ∨ r = s.store.summary → t.sync.step = .inStep) ∧
        (∀ m r, s.apply.queue = [] → u.reference = some (m, r) → m ≠ s.straps.number → r ≠ s.store.summary →
          t.sync.step = .outOfStep ∧ Announced s t (.step .outOfStep .inStep (.mismatch m r) s.store.summary))) ∧
      (s.config.pairMode ≠ .none → s.config.partner = some n → t.sync.step = s.sync.step →
        (s.pair.role = .active → c.role ≠ .standby →
          (t.pair.role = .standby → t.sched.armed = s.sched.armed.map (fun e => { e with flags := { e.flags with shadow := true } }) ∧
            t.sched.resources = s.sched.resources ∧ t.sched.doneThrough = none ∧ t.sched.shadowList = [] ∧
            t.sched.overflow = false ∧ (∀ l : Fin 8, t.lightPin l = false) ∧ (∀ l : Fin 2, t.pipPin l = false) ∧
            t.changeoverPin = false) ∧
          (s.pair.yield ≠ .none → t.pair.role = .standby ∧ t.pair.yield = .none ∧
            Announced s t (.role .standby .active .yielded s.now (some n) true none)) ∧
          (s.pair.yield = .none → s.fit = false → t.pair.role = .standby ∧
            Announced s t (.role .standby .active .doubledUnfit s.now (some n) true none)) ∧
          (s.pair.yield = .none → s.fit = true → c.judgedFit = false ∨ s.straps.number < n → t.pair.role = .active) ∧
          (s.pair.yield = .none → s.fit = true → c.judgedFit = true → ¬ s.straps.number < n → t.pair.role = .standby ∧
            Announced s t (.role .standby .active .doubledNumber s.now (some n) true none))) ∧
        (s.pair.role = .standby → s.sync.step ≠ .joining →
          (∀ cause, (c.judgedFit = false ∧ (s.pair.fitness = [false] ∨ ∃ x, s.pair.fitness = [x, false]) ∧
                cause = RoleCause.partnerUnfit) ∨
              (c.judgedFit = true ∧ c.role = .standby ∧ s.preferredOver c = true ∧ cause = .preferred) →
            (s.fit = true → t.pair.role = .active ∧ t.pair.blocked = false ∧
              Announced s t (.role .active .standby cause s.now (some n) true c.doneThrough)) ∧
            (s.fit = false → BlockedBy s t (if (s.peer n).present then s.port else s.port.post (.peer n true s.now (some c)))
              cause true (some c.role))) ∧
          (c.judgedFit = true → c.role ≠ .standby ∨ s.preferredOver c = false →
            t.pair.role = .standby ∧ t.pair.blocked = false)))

/-- An accepted message that bears this station's own number comes from another of the same number (R141, R143). The station is
muted, its queues are flushed, with SEND_FAILED MUTED for each message but PRESENCE, MARK and PART, and it is source no longer,
whatever the kind; then ordered messages and PART are taken as from any other station, an ASK is ignored, as a muted station with no
stream going out ignores any (R165), PRESENCE, MARK and YIELD are discarded, and READY and RELAY go to the host. -/
def Obligations.OwnNumberHeard : Prop :=
  ∀ (s : State) (dt : Nat) (rx : Reception) (b : Byte),
    (∀ m, s.hearsOwn rx b m → ∃ t, exec (m.row dt rx) s = .next t ∧ Agree .live s t ∧ t.line.muted = true ∧
        (s.line.muted = false → t.line.urgent = [] ∧ t.line.routine = [] ∧ t.line.bulk = [] ∧ t.line.flight = none ∧
          (∀ x ∈ s.line.all, x.failureTold = true → Announced s t (.sendFailed x .muted)) ∧ t.tb.source = false ∧
          (s.config.pairMode ≠ .none → t.pair.role ≠ .active))) ∧
    (s.line.muted = true →
      (∀ o, s.hearsOwn rx b (.ordered o) → ∃ t, exec (.receiveOrderedMessage dt rx) s = .next t ∧
        (s.sync.step = .inStep → 0 < s.apply.freePlaces → Joined s t (.ordered s.straps.number o))) ∧
      (∀ x, s.hearsOwn rx b (.part 0 x) → s.sync.step = .outOfStep → s.store.use = .empty →
        ∃ t, exec (.receivePartOpening dt rx) s = .next t ∧ t.sync.step = .catchingUp ∧
          t.sync.source = some s.straps.number) ∧
      (∀ k x, s.hearsOwn rx b (.part k x) → k ≠ 0 → s.sync.step = .catchingUp → s.sync.phase = .receiving →
        s.sync.source = some s.straps.number → s.sync.expected = k → (∀ n, s.sync.count = some n → k ≤ n + 1) →
        s.sync.buffer.length < 2 →
        ∃ t, exec (.receivePart dt rx) s = .next t ∧ t.sync.buffer = s.sync.buffer ++ [(k, x)]) ∧
      (s.hearsOwn rx b .ask → s.sync.responder ≠ .freezing → s.sync.responder ≠ .sending →
        ∃ t, exec (.receiveAsk dt rx) s = .next t ∧ SameBut [.clock, .line, .out] s t) ∧
      (∀ f, s.hearsOwn rx b (.mark f) → ∃ t, exec (.receiveMark dt rx) s = .next t ∧ SameBut [.clock, .line, .out] s t) ∧
      (∀ x, s.hearsOwn rx b (.presence x) →
        ∃ t, exec (.receivePresence dt rx) s = .next t ∧ SameBut [.clock, .line, .out] s t) ∧
      (s.hearsOwn rx b .yield → ∃ t, exec (.receiveYield dt rx) s = .next t ∧ SameBut [.clock, .line, .out] s t) ∧
      (∀ l i, s.hearsOwn rx b (.ready l i) → ∃ t, exec (.receiveReady dt rx) s = .next t ∧
        t.port = s.port.post (.peerReady s.straps.number l i)) ∧
      (∀ d, s.hearsOwn rx b (.relay d) → ∃ t, exec (.receiveRelay dt rx) s = .next t ∧
        t.port = s.port.post (.relayIn s.straps.number b d)))

/-- An ASK that is heard (R165): a station in step that passes the responder test waits 2 + 3 × rank pulses; while a stream goes out
the asker is kept; out of step, muted or failing the test nothing changes. A part 0 cancels a response round, a queued opening and
its back-off with it (R166), or opens the stream for a station that may take one (R171): CATCHING_UP, SHADOW assembling, part 1
expected, the apply queue holding. One of the stream being received abandons it with reason ORDER and is taken anew, also where its
last part has been heard and not yet written, the model's reading (log 39); any other, one heard while SHADOW is not EMPTY included,
changes nothing. -/
def Obligations.AskAndOpeningHeard : Prop :=
  ∀ (s : State) (dt : Nat) (rx : Reception) (n : StationNo) (b : Byte),
    (s.hears rx n b .ask →
      ∃ t, exec (.receiveAsk dt rx) s = .next t ∧ SameBut [.clock, .line, .sync, .out] s t ∧
        (s.sync.step ≠ .inStep → t.sync = s.sync) ∧
        (s.sync.step = .inStep → s.sync.responder = .idle → s.line.muted = false → s.passesTest = true →
          t.sync = { s.sync with responder := .waiting, wait := some (2 + 3 * s.rank) }) ∧
        (s.sync.step = .inStep → s.sync.responder = .freezing ∨ s.sync.responder = .sending →
          t.sync.pendingAsk = true ∧ n ∈ t.sync.askers) ∧
        (s.sync.responder = .waiting ∨ s.sync.responder = .opening ∨
          s.sync.responder = .idle ∧ (s.line.muted = true ∨ s.passesTest = false) → t.sync = s.sync)) ∧
    (∀ x, s.hears rx n b (.part 0 x) →
      ∃ t, exec (.receivePartOpening dt rx) s = .next t ∧ Agree .live s t ∧ Agree .tb s t ∧ Agree .roster s t ∧
        (s.sync.step = .inStep → s.sync.responder = .waiting → t.sync = { s.sync with responder := .idle, wait := none }) ∧
        (s.sync.step = .inStep → s.sync.responder = .opening → s.line.transmitting = false →
          t.sync = { s.sync with responder := .idle } ∧ t.line.bulk = s.line.bulk.filter (fun m => !m.msg.isPart) ∧
            (∀ m, s.line.inFlight = some m → m.msg.isPart = true → t.line.backoff = none) ∧ Agree .port s t) ∧
        (s.sync.step = .joining ∨ s.sync.step = .inStep ∧ s.sync.responder ∈ [.idle, .freezing, .sending] ∨
          s.sync.step = .catchingUp ∧ (s.sync.phase = .checking ∨ s.sync.phase = .swapping ∨
            s.sync.phase = .receiving ∧ s.sync.source ≠ some n) ∨
          (s.sync.step = .outOfStep ∨ s.sync.step = .catchingUp ∧ s.sync.phase = .awaiting) ∧ s.store.use ≠ .empty →
            SameBut [.clock, .line, .out] s t) ∧
        (s.sync.step = .catchingUp → s.sync.phase = .receiving → s.sync.source = some n → s.sync.responder = .idle →
          Announced s t (.step .outOfStep .catchingUp (.abandoned .order (some n) s.sync.written s.sync.count) s.store.summary) ∧
            Announced s t (.step .catchingUp .outOfStep (.stream n) s.store.summary) ∧ t.sync.step = .catchingUp ∧
            t.sync.phase = .receiving ∧ t.sync.source = some n ∧ t.sync.expected = 1 ∧ t.sync.written = 0 ∧
            t.sync.count = none ∧ t.sync.buffer = [] ∧ t.store.shadow = .empty ∧ t.store.use = .assembling ∧
            t.apply.holding = true) ∧
        (s.sync.step = .outOfStep ∨ s.sync.step = .catchingUp ∧ s.sync.phase = .awaiting → s.store.use = .empty →
          t.sync.step = .catchingUp ∧ t.sync.phase = .receiving ∧ t.sync.source = some n ∧ t.sync.expected = 1 ∧
            t.sync.buffer = [] ∧ t.store.shadow = .empty ∧ t.store.use = .assembling ∧ t.apply.holding = true))

/-- A PART numbered k ≥ 1 of the stream being received (R172): the expected one joins the buffer of two, and its write is asked for;
out of order or with the buffer full it abandons the catch-up (where both hold the reason is the model's reading, log 39, and not
stated here); of any other stream it changes nothing, and, the model's reading of R172 against R16 (log 39), nothing once the expected
part has passed the last. The buffer stays within two. -/
def Obligations.PartTaken : Prop :=
  ∀ (s : State) (dt : Nat) (rx : Reception) (n : StationNo) (b : Byte) (k : Nat) (x : List Byte),
    s.hears rx n b (.part k x) → k ≠ 0 →
    (s.sync.step ≠ .catchingUp ∨ s.sync.phase ≠ .receiving ∨ s.sync.source ≠ some n ∨
        (∃ c, s.sync.count = some c ∧ c + 1 < s.sync.expected) →
      ∃ t, exec (.receivePart dt rx) s = .next t ∧ SameBut [.clock, .line, .out] s t) ∧
    (s.sync.step = .catchingUp → s.sync.phase = .receiving → s.sync.source = some n →
      (∀ c, s.sync.count = some c → s.sync.expected ≤ c + 1) →
      ∃ t, exec (.receivePart dt rx) s = .next t ∧ Agree .live s t ∧ Agree .tb s t ∧ Agree .roster s t ∧
        (s.sync.buffer.length ≤ 2 → t.sync.buffer.length ≤ 2) ∧
        (k = s.sync.expected → s.sync.buffer.length < 2 → t.sync.step = .catchingUp ∧ t.sync.expected = k + 1 ∧
          t.sync.gap = 0 ∧ t.sync.buffer = s.sync.buffer ++ [(k, x)] ∧ Agree .apply s t ∧ Agree .port s t ∧
          (s.sync.buffer = [] → s.store.holder = none → s.store.waitSync = none →
            t.store.holder = some (.partWrite k x))) ∧
        (k ≠ s.sync.expected ∨ 2 ≤ s.sync.buffer.length → t.sync.step = .outOfStep ∧ t.sync.source = none ∧
          t.store.shadow = .empty ∧ t.apply.holding = false))

/-- A READY and a RELAY that are heard go to the host, and nothing else changes (R105, R141, R202). -/
def Obligations.ReadyAndRelayHeard : Prop :=
  ∀ (s : State) (dt : Nat) (rx : Reception) (n : StationNo) (b : Byte),
    (∀ l i, s.hears rx n b (.ready l i) →
      ∃ t, exec (.receiveReady dt rx) s = .next t ∧ SameBut [.clock, .line, .port, .out] s t ∧
        t.port = s.port.post (.peerReady n l i) ∧ t.line = { s.line with rx := .none }) ∧
    (∀ d, s.hears rx n b (.relay d) →
      ∃ t, exec (.receiveRelay dt rx) s = .next t ∧ SameBut [.clock, .line, .port, .out] s t ∧
        t.port = s.port.post (.relayIn n b d) ∧ t.line = { s.line with rx := .none })

/-- A reception that is not accepted counts in the line record by its kind (R138 to R140, R144), and a failed header, or a failed
check of an ordered kind, takes a station in step out of it (R162). A header with this station's own number mutes it (R143), but in
a fragment, which is the model's choice (log 43): the queues are flushed, with SEND_FAILED MUTED for each message but PRESENCE, MARK
and PART, a source yields its role. Whichever command brings the reception, it is so discarded, the model's choice (log 34). -/
def Obligations.BadReceptionCounted : Prop :=
  ∀ (s : State) (dt : Nat) (rx : Reception), s.listens → ∀ c ∈ receiveRows dt rx, ∃ t, exec c s = .next t ∧ Agree .live s t ∧
    (s.classify rx = .fragment → t.line.record = { s.line.record with fragments := bump s.line.record.fragments }) ∧
    (s.classify rx = .headerFailure →
      t.line.record = { s.line.record with headerFailures := bump s.line.record.headerFailures } ∧
        (s.sync.step = .inStep → t.sync.step = .outOfStep)) ∧
    (s.classify rx = .notTaken → t.line.record =
      { s.line.record with destinationDiscards := bump s.line.record.destinationDiscards }) ∧
    (s.classify rx = .badForm → t.line.record = { s.line.record with formDiscards := bump s.line.record.formDiscards }) ∧
    (∀ src kind, s.classify rx = .badChecks src kind →
      t.line.record = { s.line.record with messageFailures := bump s.line.record.messageFailures } ∧
        (∀ k, kind = some k → k.ordered = true → s.sync.step = .inStep → t.sync.step = .outOfStep)) ∧
    (s.clashes rx = true → (∀ n b m, s.classify rx ≠ .good n b m) → t.line.muted = true ∧
      (s.line.muted = false → t.line.urgent = [] ∧ t.line.routine = [] ∧ t.line.bulk = [] ∧ t.tb.source = false ∧
        ∀ x ∈ s.line.all, x.failureTold = true → Announced s t (.sendFailed x .muted)))

/-! ## The store arbiter (chapter 1) -/

/-- A free store goes to the waiting client first in the order apply engine, sync engine, cue scheduler, timing unit, host port
(R18); a store in use is not granted. -/
def Obligations.StoreGranted : Prop :=
  ∀ s : State,
    (s.store.holder ≠ none → exec .storeGrant s = .next s) ∧
    (∀ (c : Client) (op : StoreOp), s.store.holder = none → s.store.waiting c = some op →
      (∀ d ∈ [Client.apply, .sync, .scheduler, .timing, .port].takeWhile (fun d => decide (d ≠ c)), s.store.waiting d = none) →
      ∃ t, exec .storeGrant s = .next t ∧ SameBut [.store] s t ∧ t.store.holder = some op ∧ t.store.waiting c = none ∧
        (∀ d, d ≠ c → t.store.waiting d = s.store.waiting d) ∧ t.store.shadow = s.store.shadow)

/-! ## Applying (chapter 2) -/

/-- INSERT (R32): the checks in their order, then the new item, PENDING, stands at the head or directly after its anchor. An item whose slug is
not well formed, or with a short duration but no bit for it, fails with BAD_VALUE (R9, R10, R208); that flags of 16 or more do, the
first of them the taken-short bit of chapter 12, is the model's choice (log 12). The last of a batch puts it in LIVE with EDIT_DONE
APPLIED (R31, R41); that each operation is a command of its own, the batch going on between them, is the model's choice (log 11). -/
def Obligations.InsertApplies : Prop :=
  ∀ (s : State) (m : EditMsg) (b : Batch) (rest : List Byte) (anchor : Option ItemId) (id : ItemId) (slug : List Byte)
    (planned : BitVec 24) (flags : Byte) (short : BitVec 24) (raw : List (List Byte)), s.run = .run →
    s.editing m b (.insert anchor id slug planned flags short raw) rest →
    ∃ t, exec .insert s = .next t ∧
      (16 < raw.length → EditRefused s t m b .itemCuesFull) ∧
      (raw.length ≤ 16 → readCues raw = none → EditRefused s t m b .badValue) ∧
      (∀ cues, raw.length ≤ 16 → readCues raw = some cues →
        (insertItem id slug planned flags short cues = none ↔
          slugOk slug = false ∨ 16 ≤ flags.toNat ∨ flags.getLsbD 3 = false ∧ short ≠ 0) ∧
        (insertItem id slug planned flags short cues = none → EditRefused s t m b .badValue) ∧
        (∀ i, insertItem id slug planned flags short cues = some i →
          i.id = id ∧ i.slug = slug ∧ i.planned = planned ∧ i.status = .pending ∧ i.cues = sortCues cues ∧ i.float = flags.getLsbD 0 ∧
            i.fixed = flags.getLsbD 1 ∧ i.planShort = flags.getLsbD 2 ∧
            i.short = (if flags.getLsbD 3 then some short else none) ∧
          (sharesSlot cues = true → EditRefused s t m b .slotTaken) ∧
          (sharesSlot cues = false → b.work.has id = true → EditRefused s t m b .duplicateId) ∧
          (sharesSlot cues = false → b.work.has id = false → (∃ a, anchor = some a ∧ b.work.has a = false) →
            EditRefused s t m b .noAnchor) ∧
          (sharesSlot cues = false → b.work.has id = false → (∀ a, anchor = some a → b.work.has a = true) →
            (96 ≤ b.work.items.length → EditRefused s t m b .itemsFull) ∧
            (b.work.items.length < 96 → 512 < b.work.cueCount + cues.length → EditRefused s t m b .cuesFull) ∧
            (b.work.items.length < 96 → b.work.cueCount + cues.length ≤ 512 →
              EditPassed s t m b (.insert anchor id slug planned flags short raw) rest
                { b.work with items := placeAfter i anchor b.work.items }))))

/-- DELETE (R33), MOVE (R34) and REVIVE (R39): refused without the item, or while it is STANDING_BY or ON_AIR; else the item goes,
stands elsewhere, or is PENDING. The batch as in log 11, the model's choice. -/
def Obligations.DeleteMoveReviveApply : Prop :=
  ∀ (s : State) (m : EditMsg) (b : Batch) (rest : List Byte) (id : ItemId), s.run = .run →
    (s.editing m b (.delete id) rest → ∃ t, exec .delete s = .next t ∧
      (b.work.item id = none → EditRefused s t m b .noItem) ∧
      (∀ i, b.work.item id = some i → i.status.isLocked = true → EditRefused s t m b .lockedItem) ∧
      (∀ i, b.work.item id = some i → i.status.isLocked = false →
        EditPassed s t m b (.delete id) rest
          { b.work with items := b.work.items.filter fun x => decide (x.id ≠ id) })) ∧
    (∀ anchor, s.editing m b (.move id anchor) rest → ∃ t, exec .move s = .next t ∧
      (b.work.item id = none → EditRefused s t m b .noItem) ∧
      (∀ i, b.work.item id = some i → i.status.isLocked = true → EditRefused s t m b .lockedItem) ∧
      (∀ i a, b.work.item id = some i → i.status.isLocked = false → anchor = some a → b.work.has a = false ∨ a = id →
        EditRefused s t m b .noAnchor) ∧
      (∀ i, b.work.item id = some i → i.status.isLocked = false →
        (∀ a, anchor = some a → b.work.has a = true ∧ a ≠ id) →
        EditPassed s t m b (.move id anchor) rest
          { b.work with items := placeAfter i anchor (b.work.items.filter fun x => decide (x.id ≠ id)) })) ∧
    (s.editing m b (.revive id) rest → ∃ t, exec .revive s = .next t ∧
      (b.work.item id = none → EditRefused s t m b .noItem) ∧
      (∀ i, b.work.item id = some i → i.status.isLocked = true → EditRefused s t m b .lockedItem) ∧
      (∀ i, b.work.item id = some i → i.status.isLocked = false →
        EditPassed s t m b (.revive id) rest { b.work with
          items := b.work.items.map fun x => if x.id = id then { x with status := .pending } else x }))

/-- AMEND (R35), ADD_CUE (R36), DROP_CUE (R37) and SET_OUT (R38): their checks and effects. That AMEND flags of 8 or more are refused
with BAD_VALUE is the model's choice (log 12), and so is the batch that goes on (log 11). -/
def Obligations.AmendCuesAndOutApply : Prop :=
  ∀ (s : State) (m : EditMsg) (b : Batch) (rest : List Byte) (id : ItemId), s.run = .run →
    (∀ slug planned short flags, s.editing m b (.amend id slug planned short flags) rest → ∃ t, exec .amend s = .next t ∧
      ((∃ x, slug = some x ∧ slugOk x = false) ∨ (∃ f, flags = some f ∧ 8 ≤ f.toNat) → EditRefused s t m b .badValue) ∧
      ((∀ x, slug = some x → slugOk x = true) → (∀ f, flags = some f → f.toNat < 8) →
        (b.work.item id = none → EditRefused s t m b .noItem) ∧
        (∀ i, b.work.item id = some i → i.status.isLocked = true → EditRefused s t m b .lockedItem) ∧
        (∀ i, b.work.item id = some i → i.status.isLocked = false →
          EditPassed s t m b (.amend id slug planned short flags) rest { b.work with
            items := b.work.items.map fun x => if x.id = id then x.amend slug planned short flags else x }))) ∧
    (∀ raw, s.editing m b (.addCue id raw) rest → ∃ t, exec .addCue s = .next t ∧
      (readCue raw = none → EditRefused s t m b .badValue) ∧
      (∀ c, readCue raw = some c →
        (b.work.item id = none → EditRefused s t m b .noItem) ∧
        (∀ i, b.work.item id = some i → i.status.isLocked = true → EditRefused s t m b .lockedItem) ∧
        (∀ i, b.work.item id = some i → i.status.isLocked = false →
          (16 ≤ i.cues.length → EditRefused s t m b .itemCuesFull) ∧
          (i.cues.length < 16 → (∃ x ∈ i.cues, x.slot = c.slot) → EditRefused s t m b .slotTaken) ∧
          (i.cues.length < 16 → (∀ x ∈ i.cues, x.slot ≠ c.slot) → 512 ≤ b.work.cueCount → EditRefused s t m b .cuesFull) ∧
          (i.cues.length < 16 → (∀ x ∈ i.cues, x.slot ≠ c.slot) → b.work.cueCount < 512 →
            EditPassed s t m b (.addCue id raw) rest { b.work with
              items := b.work.items.map fun x => if x.id = id then { x with cues := insertCue c x.cues } else x })))) ∧
    (∀ slot : Byte, s.editing m b (.dropCue id slot) rest → ∃ t, exec .dropCue s = .next t ∧
      (16 ≤ slot.toNat → EditRefused s t m b .badValue) ∧
      (slot.toNat < 16 →
        (b.work.item id = none → EditRefused s t m b .noItem) ∧
        (∀ i, b.work.item id = some i → i.status.isLocked = true → EditRefused s t m b .lockedItem) ∧
        (∀ i, b.work.item id = some i → i.status.isLocked = false →
          ((∀ x ∈ i.cues, x.slot.val ≠ slot.toNat) → EditRefused s t m b .noCue) ∧
          ((∃ x ∈ i.cues, x.slot.val = slot.toNat) → EditPassed s t m b (.dropCue id slot) rest { b.work with
            items := b.work.items.map fun x =>
              if x.id = id then { x with cues := x.cues.filter fun c => decide (c.slot.val ≠ slot.toNat) } else x })))) ∧
    (∀ f, s.editing m b (.setOut f) rest → ∃ t, exec .setOut s = .next t ∧
      EditPassed s t m b (.setOut f) rest { b.work with hardOut := f })

/-- An EDIT that cannot begin, whichever of the eight edit commands comes (R25, R30; log 11): a base version above LIVE's is a gap,
and a station in step leaves it, the STEP notice first (log 9); a base version below LIVE's is stale; a count of 0 or above 6
refuses it with BAD_VALUE and index 0, and an operation that cannot be read with BAD_VALUE and its own (R31). A gap of each of the
six air messages is the same (R25, R42). LIVE stays. -/
def Obligations.GapsAndStaleEdits : Prop :=
  ∀ (s : State) (n : StationNo) (q : List QueueEntry), s.run = .run → s.store.holder = some .apply →
    (∀ m, s.apply.queue = .ordered n (.edit m) :: q → s.apply.batch = none → m.base ≠ s.store.live.version →
      ∀ c ∈ editRows, ∃ t, exec c s = .next t ∧ Agree .live s t ∧
          (s.store.live.version.toNat < m.base.toNat → Agree .tb s t ∧ (s.sync.step = .inStep → t.sync.step = .outOfStep ∧
            Posted (s.port.post (.step .outOfStep .inStep (.gap .edit m.base) s.store.summary)) t)) ∧
          (m.base.toNat < s.store.live.version.toNat →
            t.port = s.port.post (.editDone m.proposer m.tag .stale 0 s.store.live.version []))) ∧
    (∀ m, s.apply.queue = .ordered n (.edit m) :: q → s.apply.batch = none → m.base = s.store.live.version →
      m.count = 0 ∨ 6 < m.count.toNat → ∀ c ∈ editRows, ∃ t, exec c s = .next t ∧ Agree .live s t ∧ t.apply.batch = none ∧
        t.port = s.port.post (.editDone m.proposer m.tag .badValue 0 s.store.live.version [])) ∧
    (∀ m b, s.apply.queue = .ordered n (.edit m) :: q → s.batchOf m b →
      (∀ bytes rest, cutOp true b.rest = some (bytes, rest) → readOp bytes = none) → ∀ c ∈ editRows,
        ∃ t, exec c s = .next t ∧ EditRefused s t m b .badValue) ∧
    (∀ count (m : AirMsg) dt, s.apply.queue = .ordered n (.air count m) :: q → s.store.live.airCount.toNat < count.toNat →
      ∃ t, exec (m.command dt) s = .next t ∧ Agree .live s t ∧ Agree .tb s t ∧
        (s.sync.step = .inStep → t.sync.step = .outOfStep ∧
          Posted (s.port.post (.step .outOfStep .inStep (.gap m.kind count) s.store.summary)) t))

/-- STANDBY (R43) and SKIP (R47), their air count not above LIVE's (R42): refused without the item or in a wrong state; else the
item is STANDING_BY in place of any other, or SKIPPED with its entries cancelled. -/
def Obligations.StandbyAndSkipApply : Prop :=
  ∀ (s : State) (dt : Nat) (n : StationNo) (c : Word) (id : ItemId), c.toNat ≤ s.store.live.airCount.toNat →
    (s.airing n c (.standby id) → ∃ t, exec (.standby dt) s = .next t ∧ Agree .tb s t ∧ Agree .roster s t ∧
      (s.store.live.item id = none → AirRefused s t n (.standby id) .noItem) ∧
      (∀ i, s.store.live.item id = some i → i.status ≠ .pending → AirRefused s t n (.standby id) .wrongState) ∧
      (∀ i, s.store.live.item id = some i → i.status = .pending →
        AirApplied s t n (.standby id) { s.store.live with items := s.store.live.items.map fun x =>
          if x.id = id then { x with status := .standingBy }
          else if x.status = .standingBy then { x with status := .pending } else x })) ∧
    (s.airing n c (.skip id) → ∃ t, exec (.skip dt) s = .next t ∧ Agree .tb s t ∧ Agree .roster s t ∧
      (s.store.live.item id = none → AirRefused s t n (.skip id) .noItem) ∧
      (∀ i, s.store.live.item id = some i → i.status.isWaiting = false → AirRefused s t n (.skip id) .wrongState) ∧
      (∀ i, s.store.live.item id = some i → i.status.isWaiting = true →
        (∀ e ∈ t.sched.armed, e.item ≠ id) ∧ (∀ r ∈ t.sched.shadowList, r.item ≠ id) ∧
        AirApplied s t n (.skip id) { s.store.live with items := s.store.live.items.map fun x =>
          if x.id = id then { x with status := .skipped } else x }))

/-- TAKE (R44): refused without the item, in a wrong state, or at a frame not later than the start on air; else the item on air, if
any, is DONE, any other STANDING_BY item is PENDING, and the item is ON_AIR from the frame, its timer record with it and that of the
item it ends, where no two items are on air (R116), of which TIMING is posted (R119). An on-air duration below 0 there, which R119
rules out, is taken modulo 2^32, the model's reading (log 38); that the records are so made between an adoption and its read too is its
choice (log 47). -/
def Obligations.TakeApplies : Prop :=
  ∀ (s : State) (dt : Nat) (n : StationNo) (c : Word) (id : ItemId) (f : Frame) (short : Bool),
    c.toNat ≤ s.store.live.airCount.toNat → s.airing n c (.take id f short) →
    ∃ t, exec (.take dt) s = .next t ∧ Agree .tb s t ∧ Agree .roster s t ∧
      (s.store.live.item id = none → AirRefused s t n (.take id f short) .noItem) ∧
      (∀ i, s.store.live.item id = some i → i.status.isWaiting = false → AirRefused s t n (.take id f short) .wrongState) ∧
      (∀ i, s.store.live.item id = some i → i.status.isWaiting = true →
        (∀ x a, onAirItem s.store.live = some (x, a) → later f a.start = false →
          AirRefused s t n (.take id f short) .tooEarly) ∧
        ((∀ x ∈ s.store.live.items, ∀ y ∈ s.store.live.items, ∀ a b, x.status = .onAir a → y.status = .onAir b → x.id = y.id) →
          (∀ x a, onAirItem s.store.live = some (x, a) → later f a.start = true) →
          (∃ r, t.timing.onAir = some r ∧ r.item = id ∧ r.start = f ∧ r.holdTotal = 0 ∧ r.heldAt = none ∧ r.endFrame = none ∧
            r.used = (match i.short with
              | some d => if short || i.planShort then d else i.planned
              | none => i.planned)) ∧
          (onAirItem s.store.live = none → t.timing.ending = none) ∧
          (∀ x a, onAirItem s.store.live = some (x, a) →
            ∃ r, t.timing.ending = some r ∧ r.item = x.id ∧ r.endFrame = some f)) ∧
        (∀ x a, onAirItem s.store.live = some (x, a) → s.store.live.item x.id = some x → later f a.start = true →
          Announced s t (.timing (timingOf x a f true))) ∧
        (onAirItem s.store.live = none →
          AirApplied s t n (.take id f short) { s.store.live with items := s.store.live.items.map fun y =>
            if y.id = id then { y with status := .onAir ⟨f, short, 0, none⟩ }
            else if y.status = .standingBy then { y with status := .pending } else y }) ∧
        (∀ x a, onAirItem s.store.live = some (x, a) → later f a.start = true →
          AirApplied s t n (.take id f short) { s.store.live with items := s.store.live.items.map fun y =>
            if y.id = id then { y with status := .onAir ⟨f, short, 0, none⟩ }
            else if y.id = x.id then { y with
              status := .done a.start a.short (a.heldAt.elim a.holdTotal fun h => holdEnded a.holdTotal h f) f (f - a.start) }
            else if y.status = .standingBy then { y with status := .pending } else y }))

/-- HOLD (R45), RESUME (R46) and CLOSE (R48) act on the item on air: refused where there is none; the held-at is not before the start;
the hold total grows by the time held; CLOSE makes the item DONE, of which TIMING is posted (R119), an on-air duration below 0 taken
modulo 2^32 (log 38). -/
def Obligations.HoldResumeCloseApply : Prop :=
  ∀ (s : State) (dt : Nat) (n : StationNo) (c : Word) (f : Frame), c.toNat ≤ s.store.live.airCount.toNat →
    (s.airing n c (.hold f) → ∃ t, exec (.hold dt) s = .next t ∧ Agree .tb s t ∧ Agree .roster s t ∧
      (onAirItem s.store.live = none → AirRefused s t n (.hold f) .notOnAir) ∧
      (∀ x a, onAirItem s.store.live = some (x, a) →
        (a.heldAt.isSome = true → AirRefused s t n (.hold f) .alreadyHeld) ∧
        (a.heldAt = none → x.fixed = true → AirRefused s t n (.hold f) .fixedItem) ∧
        (a.heldAt = none → x.fixed = false → AirApplied s t n (.hold f) { s.store.live with
          items := s.store.live.items.map fun y => if y.id = x.id then
            { y with status := .onAir { a with heldAt := some (if earlier f a.start then a.start else f) } } else y }))) ∧
    (s.airing n c (.resume f) → ∃ t, exec (.resume dt) s = .next t ∧ Agree .tb s t ∧ Agree .roster s t ∧
      (onAirItem s.store.live = none → AirRefused s t n (.resume f) .notOnAir) ∧
      (∀ x a, onAirItem s.store.live = some (x, a) →
        (a.heldAt = none → AirRefused s t n (.resume f) .notHeld) ∧
        (∀ h, a.heldAt = some h → AirApplied s t n (.resume f) { s.store.live with
          items := s.store.live.items.map fun y => if y.id = x.id then
            { y with status := .onAir { a with heldAt := none, holdTotal := holdEnded a.holdTotal h f } } else y }))) ∧
    (s.airing n c (.close f) → ∃ t, exec (.close dt) s = .next t ∧ Agree .tb s t ∧ Agree .roster s t ∧
      (onAirItem s.store.live = none → AirRefused s t n (.close f) .notOnAir) ∧
      (∀ x a, onAirItem s.store.live = some (x, a) →
        (later f a.start = false → AirRefused s t n (.close f) .tooEarly) ∧
        (later f a.start = true → s.store.live.item x.id = some x → Announced s t (.timing (timingOf x a f false))) ∧
        (later f a.start = true → AirApplied s t n (.close f) { s.store.live with
          items := s.store.live.items.map fun y => if y.id = x.id then { y with
              status := .done a.start a.short (a.heldAt.elim a.holdTotal fun h => holdEnded a.holdTotal h f) f (f - a.start) } else y })))

/-- The cues of an item are armed (R79 to R83), in a station that drives its cues, no scan following while gallery time is not
usable: at STANDBY and, nothing being on air, at TAKE, where the item has one cue and this station owns it. Whether the wrap line or
the full table comes first for a LIGHT cue, and the frame that MISSED carries at TAKE, are the model's reading (log 27). That entries
of the item which stand from before, other than those from its STANDBY, are first cancelled is its choice (log 37). -/
def Obligations.CuesArmed : Prop :=
  ∀ (s : State) (dt : Nat) (n : StationNo) (count : Word) (id : ItemId) (i : Item) (c : Cue),
    count.toNat ≤ s.store.live.airCount.toNat → s.usable = false → s.pair.role ≠ .standby → s.sched.armed.length ≤ 32 →
    s.store.live.item id = some i → i.cues = [c] → c.owner ∈ s.owned →
    (s.airing n count (.standby id) → i.status = .pending → (∀ x ∈ s.store.live.items, x.status ≠ .standingBy) →
      ∃ t, exec (.standby dt) s = .next t ∧ StandbyArms s t id c ∧
        ((s.sched.armed.map Entry.key).Nodup → FormerCancelled s t id fun _ => false)) ∧
    (∀ f short, s.airing n count (.take id f short) → i.status.isWaiting = true → onAirItem s.store.live = none →
      (∀ x ∈ s.store.live.items, x.status = .standingBy → x.id = id) →
      let standing (e : Entry) := decide (e.basis = .standingBy ∧ e.cue = c)
      ∃ t, exec (.take dt) s = .next t ∧
        ((∀ e ∈ s.sched.armed, e.item = id → standing e = true) → TakeArms s t id ⟨f, short, 0, none⟩ c) ∧
        ((s.sched.armed.map Entry.key).Nodup → FormerCancelled s t id standing))

/-- The actions of the one entry of a table at a scan (R84, R85, R87, R88): a FIRE's prepare and end, a LIGHT's warn, on and off
with its line, a PIPS entry's hand-over and end, a MARKER's notify. In SHADOW it acts all the same; its PREPARE goes out, FIRE and
END on a mirrored resource alone, and what leaves the table is recorded (R188, R189; of one name: log 16). -/
def Obligations.EntriesAct : Prop :=
  ∀ (s : State) (dt : Nat) (e : Entry), s.run = .run → s.usable = true → s.sched.armed = [e] →
    ∃ t, exec (.scan dt) s = .next t ∧
      (∀ r hard len p, e.cue.body = .fire r hard len → e.state = .armed → e.prepare = some p → atOrBefore p s.now →
        s.sched.resources[r].state = .idle →
        (∀ f, e.fire = some f → later f s.now ∧ later (f - frames (s.config.resources[r]).advance) s.now) →
        t.sched.armed = [{ e with state := .prepared, preparedAt := some s.now }] ∧
          t.sched.resources[r] = { s.sched.resources[r] with state := .prepared, holder := some e.key } ∧
          t.port = s.port.post (.prepare e.item e.cue.slot r e.fire e.cue.param)) ∧
      (∀ r hard len g, e.cue.body = .fire r hard len → e.state = .running → e.endFrame = some g → atOrBefore g s.now →
        s.sched.resources[r].state = .busy → s.sched.resources[r].holder = some e.key →
        t.sched.armed = [] ∧
          t.sched.resources[r] = { s.sched.resources[r] with
            state := if (s.config.resources[r]).recovery = 0 then .idle else .recovering, holder := none } ∧
          t.port = (let p := if s.shown e then s.port.post (.ended e.item e.cue.slot r g e.cue.param e.flags.cut) else s.port
            if (s.config.resources[r]).autoRelease && !e.flags.shadow then p.post (.free r e.item e.cue.slot e.cue.param) else p) ∧
          ∀ f, e.fire = some f → Recorded s t e f) ∧
      (∀ l len, e.cue.body = .light l len → s.config.wrapLine ≠ some l →
        (∀ w, e.state = .armed → e.warn = some w → atOrBefore w s.now →
          (∀ f, e.fire = some f → later f s.now ∧ later w f = false) →
          t.sched.armed = [{ e with state := .prepared }] ∧ t.out.lights[l] = .flash ∧ Agree .port s t) ∧
        (e.state = .armed ∨ e.state = .prepared → e.fire = some s.now → t.sched.armed = [{ e with state := .running }] ∧
          t.out.lights[l] = .on ∧ Agree .port s t) ∧
        (∀ g, e.state = .running → e.endFrame = some g → atOrBefore g s.now →
          t.sched.armed = [] ∧ t.out.lights[l] = .off ∧ Agree .port s t)) ∧
      (∀ l n x rest, e.cue.body = .pips l n → e.state = .armed → e.kept = x :: rest → x.frame = s.now →
        (∀ y ∈ rest, later y.frame s.now) → t.sched.armed = [{ e with state := .running }] ∧ Agree .port s t ∧
          t.out.pips[l] = some ⟨e.item, e.cue.slot, n, e.fire.getD 0, e.kept, rest, if e.flags.cut then e.endFrame else none,
            some ⟨x, s.clock + dt⟩, false⟩) ∧
      (∀ l n g, e.cue.body = .pips l n → e.state = .running → e.endFrame = some g → atOrBefore g s.now →
        t.sched.armed = [] ∧ Agree .port s t) ∧
      (e.cue.body = .marker → e.state = .armed → e.fire = some s.now → t.sched.armed = [] ∧ Recorded s t e s.now ∧
        (e.flags.shadow = true → Agree .port s t) ∧
        (e.flags.shadow = false → ∃ len deferral join, t.port = s.port.post
          (.fire e.item e.cue.slot none s.now len e.flags deferral join e.cue.param)))

/-- The late rule for the one entry of a table, ARMED, its key action frame earlier than now (R89). Joined: a FIRE or a cut MARKER
whose end is to come acts, its last fire the scheduled one, a LIGHT without an end is ON, a PIPS entry hands over the pips to come.
Late by 8 frames or fewer: a FIRE posts FIRE with LATE and END, a MARKER FIRE with LATE, and a LIGHT or PIPS entry leaves with no
notice. Later than that it is missed, and the resource's last fire stays. In SHADOW the notices stay back but those of a mirrored
resource, and a record is made (R188, R189). That a FIRE goes out for an entry notified before (log 14), that a start takes over a
BUSY or RECOVERING resource (log 15), that a record replaces one of its name (log 16) and that a sequencer with no pip to come is
idle (log 17) are the model's reading. -/
def Obligations.LateRule : Prop :=
  (∀ (s : State) (dt : Nat) (e : Entry) (f : Frame), s.run = .run → s.usable = true → s.sched.armed = [e] →
    e.state = .armed → e.fire = some f → earlier f s.now →
    ∃ t, exec (.scan dt) s = .next t ∧
      let missed := t.sched.armed = [] ∧ t.port = (if e.flags.shadow then s.port else
        s.port.post (.missed e.item e.cue .tooLate (some f) (some (s.now - f))))
      (∀ r hard len g, e.cue.body = .fire r hard len → e.endFrame = some g →
        let recovered := g + frames (s.config.resources[r]).recovery.toNat
        (later g s.now → (∃ x, t.sched.armed = [x] ∧ x.key = e.key ∧ x.state = .running ∧ x.flags.joined = true ∧
            x.joinOffset = some (s.now - f) ∧ x.endFrame = some g ∧ x.withheld = !s.shown e) ∧
          t.sched.resources[r] = ⟨.busy, some e.key, some f, some recovered⟩ ∧
          (s.shown e = true → ∃ len flags deferral, flags.joined = true ∧
            Announced s t (.fire e.item e.cue.slot (some r) f len flags deferral (some (s.now - f)) e.cue.param))) ∧
        (atOrBefore g s.now → fdiff s.now f ≤ 8 → t.sched.armed = [] ∧ Recorded s t e f ∧
          t.sched.resources[r] = ⟨if (s.config.resources[r]).recovery = 0 ∨ atOrBefore recovered s.now then .idle
            else .recovering, none, some f, some recovered⟩ ∧
          (s.shown e = true → (∃ len flags deferral join, flags.late = true ∧
              Announced s t (.fire e.item e.cue.slot (some r) f len flags deferral join e.cue.param)) ∧
            Announced s t (.ended e.item e.cue.slot r g e.cue.param e.flags.cut))) ∧
        (atOrBefore g s.now → 8 < fdiff s.now f → missed ∧ Recorded s t e f ∧
          t.sched.resources[r].lastFire = s.sched.resources[r].lastFire)) ∧
      (∀ l len, e.cue.body = .light l len → s.config.wrapLine ≠ some l →
        ((∀ g, e.endFrame = some g → later g s.now) →
          (∃ x, t.sched.armed = [x] ∧ x.key = e.key ∧ x.state = .running ∧ x.flags.joined = true ∧
            x.joinOffset = some (s.now - f)) ∧ t.out.lights[l] = .on ∧ Agree .port s t) ∧
        (∀ g, e.endFrame = some g → atOrBefore g s.now → t.out.lights[l] = .off ∧
          (fdiff s.now f ≤ 8 → t.sched.armed = [] ∧ Agree .port s t) ∧ (8 < fdiff s.now f → missed))) ∧
      (e.cue.body = .marker →
        let fires (p : EntryFlags → Option Word → Prop) := t.sched.armed = [] ∧ Recorded s t e f ∧
          (e.flags.shadow = true → Agree .port s t) ∧
          (e.flags.shadow = false → ∃ len flags deferral join, p flags join ∧
            t.port = s.port.post (.fire e.item e.cue.slot none f len flags deferral join e.cue.param))
        (∀ g, e.endFrame = some g → later g s.now → fires fun flags join => flags.joined = true ∧ join = some (s.now - f)) ∧
        ((∀ g, e.endFrame = some g → atOrBefore g s.now) →
          (fdiff s.now f ≤ 8 → fires fun flags _ => flags.late = true) ∧
          (8 < fdiff s.now f → missed ∧ Recorded s t e f)))) ∧
  ∀ (s : State) (dt : Nat) (e : Entry) (l : Fin 2) (n : Nat) (a z : Pip) (g : Frame), s.run = .run → s.usable = true →
    s.sched.armed = [e] → e.state = .armed → e.cue.body = .pips l n → e.kept.head? = some a → e.kept.getLast? = some z →
    earlier a.frame s.now → e.endFrame = some g →
    ∃ t, exec (.scan dt) s = .next t ∧
      (later g s.now → (∃ x, t.sched.armed = [x] ∧ x.key = e.key ∧ x.state = .running ∧ x.flags.joined = true) ∧
        Agree .port s t ∧
        (let left := e.kept.filter fun p => !earlier p.frame s.now
         (left = [] → t.out.pips[l] = none) ∧
          (left ≠ [] → ∃ p, t.out.pips[l] = some p ∧ p.item = e.item ∧ p.slot = e.cue.slot ∧ p.count = n ∧ p.kept = left))) ∧
      (atOrBefore g s.now → t.sched.armed = [] ∧ t.out.pips = s.out.pips ∧
        (fdiff s.now z.frame ≤ 8 → Agree .port s t) ∧
        (8 < fdiff s.now z.frame → t.port = (if e.flags.shadow then s.port else
          s.port.post (.missed e.item e.cue .tooLate (some z.frame) (some (s.now - z.frame))))))

/-- The entries of an item as it changes, in a table of distinct names, none in SHADOW. At a CLOSE (R92): those HELD or with
their key action at the end frame or later are cancelled, and so, by the model's choice, are those without a key frame (log 37);
those that would pass it are cut, the rest stand, and the entries of an earlier DONE item go. At a HOLD (R94): those that wait
beyond the hold frame and were not notified are HELD, the rest stand. At a RESUME while gallery time is not usable (R95): those HELD
return with their frames raised by the shift. At an EDIT that deletes or revives items, when its last operation does (R93): their
entries are cancelled with EDITED and the others stand, and where the batch holds a SET_OUT no entry changes; that the item most
recently DONE is forgotten with its entries alone, and its shadow records go with them, is the model's reading (log 27). -/
def Obligations.EntriesFollowTheItem : Prop :=
  (∀ (s : State) (dt : Nat) (n : StationNo) (count : Word) (x : Item) (a : Airing) (f : Frame),
    count.toNat ≤ s.store.live.airCount.toNat → onAirItem s.store.live = some (x, a) →
    (∀ y ∈ s.store.live.items, ∀ b, y.status = .onAir b → y.id = x.id) →
    (s.sched.armed.map Entry.key).Nodup → (∀ e ∈ s.sched.armed, e.flags.shadow = false) →
    (s.airing n count (.close f) → later f a.start = true → ∃ t, exec (.close dt) s = .next t ∧
      (∀ e ∈ s.sched.armed, e.item = x.id →
        (e.state = .held ∨ (∀ k, e.keyFrame = some k → atOrAfter k f) →
          (∀ y ∈ t.sched.armed, y.key ≠ e.key) ∧
            ∃ notified running released, Announced s t (.cancel e.item e.cue .itemEnd notified running released)) ∧
        (e.state ≠ .held → (∃ k, e.keyFrame = some k ∧ earlier k f) →
          ((∀ g, e.endFrame = some g → later g f) → ∃ y ∈ t.sched.armed, y.key = e.key ∧ y.state = e.state ∧
            y.endFrame = some f ∧ y.flags.cut = (e.flags.cut || !(e.cue.isLight && e.cue.lengths.isNone)) ∧
            ∀ r, e.cue.resource = some r → e.state = .running → s.sched.resources[r].holder = some e.key →
              t.sched.resources[r].recoveryUntil = some (f + frames (s.config.resources[r]).recovery.toNat)) ∧
          (∀ g, e.endFrame = some g → atOrBefore g f → e ∈ t.sched.armed))) ∧
      (∀ old g, s.sched.lastDone = some (old, g) → old ≠ x.id → ∀ e ∈ t.sched.armed, e.item ≠ old) ∧
      t.sched.lastDone = some (x.id, f)) ∧
    (s.airing n count (.hold f) → a.heldAt = none → x.fixed = false → ∃ t, exec (.hold dt) s = .next t ∧
      let h := if earlier f a.start then a.start else f
      t.sched.holdFrame = some h ∧ ∀ e ∈ s.sched.armed,
        (e.item = x.id → e.state = .armed ∨ e.state = .prepared → (∃ k, e.nextAction s.env = some k ∧ later k h) →
          e.cue.resource = none ∨ e.notified = false → ∃ y ∈ t.sched.armed, y.key = e.key ∧ y.state = .held ∧
            y.previous = some e.state ∧ y.fire = e.fire ∧ y.preparedAt = e.preparedAt) ∧
        (e.item ≠ x.id ∨ e.state = .running ∨ (e.cue.resource.isSome = true ∧ e.notified = true) ∨
          (∀ k, e.nextAction s.env = some k → later k h = false) → e ∈ t.sched.armed)) ∧
    (∀ h, s.airing n count (.resume f) → a.heldAt.isSome = true → s.usable = false → s.sched.holdFrame = some h →
      ∃ t, exec (.resume dt) s = .next t ∧ t.sched.holdFrame = none ∧
        let shift := if earlier f h then 0 else f - h
        ∀ e ∈ s.sched.armed,
          (e.item = x.id → e.state = .held → ∃ y ∈ t.sched.armed, y.key = e.key ∧ y.state = e.previous.getD .armed ∧
            y.planned = e.planned.map (· + shift) ∧ y.fire = e.fire.map (· + shift) ∧
            y.prepare = e.prepare.map (· + shift) ∧ y.endFrame = e.endFrame.map (· + shift)) ∧
          (e.item ≠ x.id ∨ e.state ≠ .held → e ∈ t.sched.armed))) ∧
  ∀ (s : State) (m : EditMsg) (b : Batch) (rest : List Byte) (id : ItemId) (i : Item) (c : Instr) (op : RawOp), s.run = .run →
    (c, op) ∈ [(Instr.delete, RawOp.delete id), (.revive, .revive id)] → s.editing m b op rest → b.index + 1 = m.count.toNat →
    b.work.item id = some i → i.status.isLocked = false → (s.sched.armed.map Entry.key).Nodup →
    (∀ e ∈ s.sched.armed, e.flags.shadow = false) →
    let gone (j : ItemId) := j = id ∨ j ∈ b.deleted ∨ j ∈ b.revived
    ∃ t, exec c s = .next t ∧ (b.setOut = true → Agree .sched s t) ∧
      (b.setOut = false →
        (∀ e ∈ s.sched.armed, (gone e.item → (∀ y ∈ t.sched.armed, y.key ≠ e.key) ∧
            ∃ notified running released, Announced s t (.cancel e.item e.cue .edited notified running released)) ∧
          (¬ gone e.item → e ∈ t.sched.armed)) ∧
        (∀ r ∈ t.sched.shadowList, ¬ gone r.item) ∧ ∀ j f, t.sched.lastDone = some (j, f) → ¬ gone j)

/-! ## The store's other operations (chapters 1, 4, 6, 9) -/

/-- The freeze copy (R19, R167): SHADOW takes LIVE, FROZEN, the marker leaves the queue, and the stream begins; a copy abandoned
meanwhile leaves SHADOW empty, though a new round be FREEZING (R170). Markers of abandoned streams behind it leave without a copy. A
part read while SENDING is offered (R168); of an abandoned stream it is dropped. -/
def Obligations.FreezeCopyAndPartRead : Prop :=
  ∀ s : State, s.run = .run →
    (∀ void gone q, s.store.holder = some .freezeCopy → s.store.waitApply = none → s.apply.queue = .marker void :: gone ++ q →
      (∀ e ∈ gone, e = .marker true) → gone.length ≤ 8 → (∀ e ∈ q, e.isOrdered = true) →
      ∃ t, exec .freezeCopy s = .next t ∧ Agree .live s t ∧ Agree .tb s t ∧ Agree .port s t ∧ t.apply.queue = q ∧
        (s.store.dropped = true → t.store.shadow = .empty ∧ t.store.use = .empty ∧ Agree .sync s t) ∧
        (s.store.dropped = false → s.sync.responder = .freezing → t.store.shadow = s.store.live ∧ t.store.use = .frozen ∧
          t.sync = { s.sync with responder := .sending, nextPart := some 1 }) ∧
        (s.sync.responder ≠ .freezing → t.store.shadow = .empty ∧ t.store.use = .empty)) ∧
    (∀ k, s.store.holder = some (.partRead k) →
      ∃ t, exec .partRead s = .next t ∧ Agree .live s t ∧ Agree .tb s t ∧ Agree .port s t ∧
        (s.store.dropped = false → s.line.muted = false → s.line.bulk.length < 2 → SameBut [.store, .line, .out] s t ∧
          t.line.bulk = s.line.bulk ++ [⟨.part k (partContent s.store.shadow k), 0, false⟩] ∧
          t.store.shadow = s.store.shadow) ∧
        (s.store.dropped = true → SameBut [.store, .out] s t ∧ t.store.shadow = .empty ∧ t.store.use = .empty))

/-- A part write into SHADOW (R172) and the check of the whole (R174): a part that passes joins SHADOW, and the last is followed by
the check; a check that passes is followed by the swap. A failure abandons the catch-up with its SHADOW (R175). LIVE stays. That an
absent hard out must be written as zero bytes in part 1 is the model's choice (log 44). -/
def Obligations.PartWriteAndShadowCheck : Prop :=
  ∀ s : State, s.run = .run → s.store.dropped = false →
    (∀ k x, s.store.holder = some (.partWrite k x) →
      ∃ t, exec .partWrite s = .next t ∧ Agree .live s t ∧ Agree .tb s t ∧ Agree .roster s t ∧
        (∀ r, s.store.shadow.writePart k x = some r → t.store.shadow = r ∧ t.sync.written = s.sync.written + 1 ∧
          t.sync.buffer = s.sync.buffer.tail ∧ t.sync.step = s.sync.step ∧ Agree .port s t ∧
          (s.sync.count = some s.sync.written → t.sync.phase = .checking) ∧
          (s.sync.count ≠ some s.sync.written → t.sync.phase = s.sync.phase)) ∧
        (s.store.shadow.writePart k x = none → t.sync.step = .outOfStep ∧ t.store.shadow = .empty)) ∧
    (s.store.holder = some .shadowCheck →
      ∃ t, exec .shadowCheck s = .next t ∧ Agree .live s t ∧ Agree .tb s t ∧ Agree .roster s t ∧
        (s.store.shadow.checkWord = s.store.shadow.check → t.sync = { s.sync with phase := .swapping } ∧
          t.store.shadow = s.store.shadow ∧ Agree .port s t) ∧
        (s.store.shadow.checkWord ≠ s.store.shadow.check → t.sync.step = .outOfStep ∧ t.store.shadow = .empty))

/-- The bank swap (R20, R176, R40, R96, R124): LIVE is the assembled replica and SHADOW is empty; the station is in step, its apply
queue holds no longer, its serial counter follows its items, its schedule is to be read again, and its timer records go. That its shadow
records go at this moment, and not with the read, is the model's choice (log 49). -/
def Obligations.BankSwapAdopts : Prop :=
  ∀ s : State, s.run = .run → s.store.holder = some .bankSwap → s.store.dropped = false →
    ∃ t, exec .bankSwap s = .next t ∧ t.store.live = s.store.shadow ∧ t.store.summary = s.store.shadow.summary ∧
      t.store.shadow = .empty ∧ t.sync.step = .inStep ∧ t.sync.phase = .awaiting ∧ t.apply.holding = false ∧
      t.apply.serial = serialAfter s.straps.number s.store.shadow.items ∧ t.sched.rearmWanted = true ∧
      t.sched.lastDone = s.sched.lastDone ∧ t.sched.shadowList = [] ∧ t.sched.overflow = false ∧ t.timing.onAir = none ∧ t.timing.ending = none ∧
      Agree .tb s t ∧ Agree .roster s t ∧ Agree .cfg s t

/-- The reads of LIVE as they complete: rearming (R96), takeover (R191), projection (R120, R124) with BACKTIME where it changes the
sign (R122), READ_ITEM and READ_ORDER (R203). That a projection read which already waited at an adoption builds the on-air record is
the model's reading (log 27); that the hold frame becomes the held-at on air at the rearming (log 45), and that an ending record stays at
the projection (log 47), is its choice. -/
def Obligations.ReadsComplete : Prop :=
  ∀ (s : State) (dt : Nat), s.run = .run →
    (s.store.holder = some .rearmRead →
      ∃ t, exec (.rearmRead dt) s = .next t ∧ SameBut [.clock, .store, .sched, .out, .port] s t ∧
        t.sched.rearmWanted = false ∧ t.sched.holdFrame = (onAirItem s.store.live).bind (fun x => x.2.heldAt)) ∧
    (s.store.holder = some .takeoverRead →
      ∃ t, exec (.takeoverRead dt) s = .next t ∧ SameBut [.clock, .store, .sched, .out, .port] s t ∧
        t.sched.takeover = none) ∧
    (s.store.holder = some .projectionRead →
      ∃ t, exec .projectionRead s = .next t ∧ SameBut [.store, .timing, .out, .port] s t ∧
        t.timing.projection = s.store.live.projection ∧ t.timing.rebuild = false ∧ t.timing.ending = s.timing.ending ∧
        t.timing.onAir = (if s.timing.rebuild then s.store.live.projection.onAir else s.timing.onAir) ∧
        t.timing.sign = signOf (s.store.live.projection.overUnder s.now) ∧
        t.port = (if t.timing.sign = s.timing.sign then s.port else
          let p := s.store.live.projection
          s.port.post (.backtime t.timing.sign (p.overUnder s.now) (p.endFrame s.now) p.hardOut s.now false))) ∧
    (∀ id, s.store.holder = some (.itemRead id) →
      ∃ t, exec .itemReadComplete s = .next t ∧ SameBut [.store, .port] s t ∧
        t.port = { s.port.post (.itemReply s.store.live.summary (s.store.live.item id)) with
          requests := s.port.requests.tail, inHand := false }) ∧
    (s.store.holder = some .orderRead →
      ∃ t, exec .orderReadComplete s = .next t ∧ SameBut [.store, .port] s t ∧
        t.port = { s.port.post (.orderReply s.store.live.summary (s.store.live.items.map (·.id))) with
          requests := s.port.requests.tail, inHand := false })

/-- A takeover, here on the partner's YIELD (R190): at frame T SHADOW goes from every entry, a withheld FIRE is posted, with JOINED
and its offset where it runs, the shadow list is settled by the late rule and emptied, but for what the partner has done and
mirrored resources, of which nothing is said, and its names are kept for the read of R191. That the FIRE of a record carries no
deferral and no join offset, SHADOW clear, is the model's reading (log 27); so is that a withheld FIRE not yet started is posted
whatever D is, and that a takeover takes the place of one whose read has not completed (log 35). That the overflow mark is kept for
the read is its choice (log 41). -/
def Obligations.TakeoverSettles : Prop :=
  ∀ (s : State) (dt : Nat) (rx : Reception) (n : StationNo) (b : Byte), s.hears rx n b .yield → s.config.pairMode ≠ .none →
    s.config.partner = some n → s.pair.role = .standby → s.fit = true → (s.sched.armed.map Entry.key).Nodup →
    ∃ t, exec (.receiveYield dt rx) s = .next t ∧ t.sched.shadowList = [] ∧ t.sched.overflow = false ∧
      t.sched.takeover = some ⟨s.partnerDone, s.now, s.sched.overflow, s.sched.shadowList.map fun r => (r.item, r.cue.slot)⟩ ∧
      Agree .live s t ∧ t.sched.resources = s.sched.resources ∧ t.sched.groups = s.sched.groups ∧
      (∀ e ∈ t.sched.armed, e.flags.shadow = false) ∧
      (∀ e ∈ s.sched.armed, ∀ f, e.withheld = true → e.fire = some f → ∃ deferral,
        (e.state = .running → Announced s t (.fire e.item e.cue.slot e.cue.resource f e.length
          { e.flags with shadow := false, joined := true } deferral (some (s.now - f)) e.cue.param)) ∧
        (e.state ≠ .running → ∃ join, Announced s t (.fire e.item e.cue.slot e.cue.resource f e.length
          { e.flags with shadow := false } deferral join e.cue.param))) ∧
      (∀ r ∈ s.sched.shadowList, (∀ d, s.partnerDone = some d → later r.key d = true) → r.mirror = false →
        (fdiff s.now r.fire ≤ 8 → Announced s t (.fire r.item r.cue.slot r.cue.resource r.fire r.length
            { r.flags with late := true, shadow := false } none none r.cue.param) ∧
          ∀ x g, r.cue.resource = some x → r.endFrame = some g →
            Announced s t (.ended r.item r.cue.slot x g r.cue.param r.flags.cut)) ∧
        (8 < fdiff s.now r.fire → Announced s t (.missed r.item r.cue .tooLate (some r.fire) (some (s.now - r.fire))))) ∧
      ((∀ e ∈ s.sched.armed, e.withheld = false) →
        (∀ r ∈ s.sched.shadowList, r.mirror = true ∨ ∃ d, s.partnerDone = some d ∧ later r.key d = false) →
        t.port = s.port.post (.role .active .standby .yieldReceived s.now (some n) (s.peer n).present s.partnerDone))

/-- What the reads of adoption and takeover arm, no scan following while gallery time is not usable. At adoption an entry stays
where its item is on air or standing by with its basis and holds its cue, and is cancelled otherwise; the one owned cue of the item
on air, if it lacks an entry, is armed as at TAKE (R96). After a takeover it is so armed if it has no shadow record and its planned
key frame is later than D, for a LIGHT or PIPS cue than T, and after an overflow than T too (R191). That the planned key frame of a
PIPS cue is that of the first of all its pips is the model's reading (log 27), and that the mark of an overflow since the takeover
counts too and that a cue whose entry left the table since the takeover lacks one (log 41). -/
def Obligations.ReadsArmTheItem : Prop :=
  ∀ (s : State) (dt : Nat), s.run = .run → s.usable = false → s.pair.role ≠ .standby → s.sched.armed.length ≤ 32 →
    (s.sched.armed.map Entry.key).Nodup →
    let kept (e : Entry) := ∃ i ∈ s.store.live.items, i.id = e.item ∧ i.status = e.basis ∧ e.cue ∈ i.cues ∧
      (i.status = .standingBy ∨ ∃ a, i.status = .onAir a)
    (s.store.holder = some .rearmRead → ∃ t, exec (.rearmRead dt) s = .next t ∧
      (∀ e ∈ s.sched.armed, (kept e → e ∈ t.sched.armed) ∧
        (¬ kept e → e.flags.shadow = false →
          ∃ notified running released, Announced s t (.cancel e.item e.cue .adoption notified running released)))) ∧
    ∀ (x : Item) (a : Airing) (c : Cue), onAirItem s.store.live = some (x, a) →
      (∀ i ∈ s.store.live.items, i.status ≠ .standingBy) → x.cues = [c] → c.owner ∈ s.owned →
      (∀ e ∈ s.sched.armed, e.key ≠ (x.id, c.slot)) →
      (s.store.holder = some .rearmRead → (∀ e ∈ s.sched.armed, kept e) →
        ∃ t, exec (.rearmRead dt) s = .next t ∧ TakeArms s t x.id a c) ∧
      (∀ k, s.store.holder = some .takeoverRead → s.sched.takeover = some k → s.sched.shadowList = [] →
        ∃ t, exec (.takeoverRead dt) s = .next t ∧
          let f := plannedKey s.env a c
          let due := (if c.resource.isSome ∨ c.isMarker then ∀ d, k.doneThrough = some d → later f d else later f k.frame) ∧
            (k.overflow = true ∨ s.sched.overflow = true → later f k.frame)
          ((x.id, c.slot) ∉ k.keys → due → TakeArms s t x.id a c) ∧
          ((x.id, c.slot) ∈ k.keys ∨ ¬ due → t.sched.armed = s.sched.armed ∧ Agree .port s t))

/-! ## The host port (chapter 11) -/

/-- The transfers of the port, none being in progress. A request write (R194) is queued whole while a place is free; cut short or
without a place it is lost, and the flag says so; port status gives the free places, 4 less the requests queued; a request of length
0 or of no kind is refused at handling (R204). A notice read gives the first URGENT notice, else the first ROUTINE one, else
nothing, and removes it where it runs to the last byte (R197); a status read gives 24 bytes and clears the lost flags (R198); the
enables take their bits, the others ignored (log 36), and the interrupt line follows them (R199); an invalid transfer is ignored
(R193). A transfer that takes its time: writes act at its end as at one moment, a notice read chooses its notice at its beginning
and removes it at its last byte, notices posted meanwhile leave it alone or are lost for want of its place (R196, R197), and one
ignored only ends (R206), as one does that ends invalid, a notice removed at its last byte staying so (log 36). None comes within
another (log 24). In reset a transfer at one moment is ignored. -/
def Obligations.PortTransfers : Prop :=
  (∀ s : State, s.run ≠ .reset → s.port.transfer = none →
    (∀ (n : Byte) (bytes : List Byte), n.toNat ≤ bytes.length → s.port.requests.length < 4 →
      exec (.requestWrite (.whole n) bytes) s =
        .next { s with port := { s.port with requests := s.port.requests ++ [bytes.take n.toNat] } }) ∧
    (∀ (n : Byte) (bytes : List Byte), bytes.length < n.toNat ∨ 4 ≤ s.port.requests.length →
      exec (.requestWrite (.whole n) bytes) s = .next { s with port := { s.port with requestLost := true } }) ∧
    (∀ (toLast : Bool) n rest, s.port.urgent = n :: rest → exec (.noticeRead (.whole toLast)) s = .next { s with
      port := { s.port with out := .notice n n.transfer, urgent := if toLast then rest else n :: rest } }) ∧
    (∀ (toLast : Bool) n rest, s.port.urgent = [] → s.port.routine = n :: rest →
      exec (.noticeRead (.whole toLast)) s = .next { s with
        port := { s.port with out := .notice n n.transfer, routine := if toLast then rest else n :: rest } }) ∧
    (∀ toLast : Bool, s.port.urgent = [] → s.port.routine = [] →
      exec (.noticeRead (.whole toLast)) s = .next { s with port := { s.port with out := .empty [0, 0] } }) ∧
    exec .portStatusRead s = .next { s with port := { s.port with
      out := .status s.statusBytes, requestLost := false, urgentLost := false, routineLost := false } } ∧
    (∀ e : Byte, exec (.portControlWrite (.whole e)) s = .next { s with port := { s.port with
      urgentEnable := e.getLsbD 0, routineEnable := e.getLsbD 1 } }) ∧
    (∀ first rest, exec (.invalidTransfer first rest) s = .next s) ∧
    (∀ bytes, exec (.requestWrite .begins bytes) s = .next (s.withTransfer (some .requestWrite))) ∧
    exec (.portControlWrite .begins) s = .next (s.withTransfer (some .portControl)) ∧
    (∀ n rest, s.port.urgent = n :: rest → exec (.noticeRead .begins) s = .next { s with
      port := { s.port with out := .notice n n.transfer, transfer := some (.notice true) } }) ∧
    (∀ n rest, s.port.urgent = [] → s.port.routine = n :: rest → exec (.noticeRead .begins) s = .next { s with
      port := { s.port with out := .notice n n.transfer, transfer := some (.notice false) } }) ∧
    (s.port.urgent = [] → s.port.routine = [] → exec (.noticeRead .begins) s = .next { s with
      port := { s.port with out := .empty [0, 0], transfer := some .carried } })) ∧
  (∀ s : State, s.run ≠ .reset →
    (∀ (n : Byte) (bytes : List Byte), s.port.transfer = some .requestWrite →
      exec (.requestWrite (.ends n) bytes) s = exec (.requestWrite (.whole n) bytes) (s.withTransfer none)) ∧
    (∀ e : Byte, s.port.transfer = some .portControl →
      exec (.portControlWrite (.ends e)) s = exec (.portControlWrite (.whole e)) (s.withTransfer none)) ∧
    (∀ u : Bool, s.port.transfer = some (.notice u) →
      exec (.noticeRead .lastByte) s = .next { s with port := { s.port with
        urgent := if u then s.port.urgent.tail else s.port.urgent
        routine := if u then s.port.routine else s.port.routine.tail
        transfer := some .carried } } ∧
      exec (.noticeRead .ends) s = .next (s.withTransfer none)) ∧
    (s.port.transfer = some .carried → exec (.noticeRead .ends) s = .next (s.withTransfer none)) ∧
    ((∀ u, s.port.transfer ≠ some (.notice u)) → exec (.noticeRead .lastByte) s = .next s) ∧
    (∀ x first rest, s.port.transfer = some x → x.code = some first →
      exec (.invalidTransfer first rest) s = .next (s.withTransfer none)) ∧
    (∀ c : Instr, s.port.transfer = some .ignored → endsTransfer c → exec c s = .next (s.withTransfer none)) ∧
    (∀ c : Instr, s.port.transfer ≠ none → beginsTransfer c ∨ wholeTransfers c → exec c s = .next s) ∧
    (∀ r q, s.port.inHand = false → s.port.requests = r :: q → r = [] ∨ reqKind r = none →
      ∃ t, exec .unknownRequest s = .next t ∧ ReqRefused s t none .badRequest .none)) ∧
  (∀ (s : State) (c : Instr), s.run = .reset → wholeTransfers c → exec c s = .next s) ∧
  (∀ (p : Port) (m : Notice), (p.post m).transfer = p.transfer ∧ (p.post m).out = p.out ∧
    (∀ n, p.urgent.head? = some n → (p.post m).urgent.head? = some n) ∧
    (∀ n, p.routine.head? = some n → (p.post m).routine.head? = some n) ∧
    (m.isUrgent = true → 24 ≤ p.urgent.length → p.post m = { p with urgentLost := true }) ∧
    (m.isUrgent = false → 40 ≤ p.routine.length → p.post m = { p with routineLost := true })) ∧
  ∀ s : State, s.statusBytes.length = 24 ∧ s.statusBytes.head? = some (BitVec.ofNat 8 (4 - s.port.requests.length)) ∧
    (s.port.interrupt = true ↔ s.port.urgentEnable = true ∧ s.port.urgent ≠ [] ∨
      s.port.routineEnable = true ∧ s.port.routine ≠ [])

/-- In START every request but CONFIGURE and RESTART is refused with NOT_CONFIGURED (R148, R204). CONFIGURE in START (R149, R150):
valid fields bring the station to RUN with its configuration and role; a field out of range is refused by name, and so, the model's
choice (log 48), is a resource byte with bits 4 to 7 not zero. In RUN it is refused. -/
def Obligations.ConfigureHandled : Prop :=
  (∀ x ∈ requestRows, ∀ (s : State) (r : List Byte) (q : List (List Byte)), s.run = .start → s.port.inHand = false →
    s.port.requests = r :: q → reqKind r = some x.1 →
    ∃ t, exec x.2 s = .next t ∧ ReqRefused s t (some x.1) .notConfigured (x.1.detail r.tail)) ∧
  ∀ (s : State) (dt : Nat) (r : List Byte) (q : List (List Byte)), s.port.inHand = false → s.port.requests = r :: q →
    reqKind r = some .configure →
    (s.run = .start → configError s.straps.number r.tail = none →
      ∃ t, exec (.configure dt) s = .next t ∧ SameBut [.run, .cfg, .clock, .tb, .pair, .port] s t ∧ t.run = .run ∧
        t.cfg = some (configOf r.tail) ∧ t.tb = { s.tb with watchFrom := s.clock + dt } ∧
        t.pair = { s.pair with role := if (configOf r.tail).pairMode = .none then .solo else .standby } ∧
        t.port = ({ s.port with requests := q } : Port).post
          (.configDone s.straps.number s.straps.timeCapable s.straps.directorCapable (configOf r.tail).pairMode
            (match (configOf r.tail).pairMode with
              | .none => none
              | .main => some s.straps.number
              | .backup => (configOf r.tail).partner) t.pair.role)) ∧
    (∀ e, s.run = .start → configError s.straps.number r.tail = some e →
      ∃ t, exec (.configure dt) s = .next t ∧ SameBut [.clock, .port] s t ∧ t.port =
        ({ s.port with requests := q } : Port).post (.reqRefused (some .configure) .badRequest (.configure (some e)))) ∧
    (s.run = .run → ∃ t, exec (.configure dt) s = .next t ∧ SameBut [.clock, .port] s t ∧ t.port =
      ({ s.port with requests := q } : Port).post (.reqRefused (some .configure) .notInStart (.configure none)))

/-- PROPOSE (R200): a readable one, its EDIT of at most 255 bytes and its base version not above LIVE's, becomes the EDIT with the ids
of the serial counter filled in (R40), and the counter moves on whether or not the EDIT finds a place; checks that fail refuse. -/
def Obligations.ProposeHandled : Prop :=
  ∀ (s : State) (f : List Byte), s.asked .propose f →
    (s.line.muted = true → ∃ t, exec .propose s = .next t ∧ ReqRefused s t (some .propose) .muted (proposeDetail f)) ∧
    (s.line.muted = false → s.sync.step ≠ .inStep →
      ∃ t, exec .propose s = .next t ∧ ReqRefused s t (some .propose) .notInStep (proposeDetail f)) ∧
    (s.line.muted = false → s.sync.step = .inStep → readPropose f = none →
      ∃ t, exec .propose s = .next t ∧ ReqRefused s t (some .propose) .badRequest (proposeDetail f)) ∧
    (∀ base tag count ops, s.line.muted = false → s.sync.step = .inStep → readPropose f = some (base, tag, count, ops) →
      255 < (buildEdit s.straps.number s.apply.serial base tag count ops).1.bytes.length ∨
        s.store.summary.version.toNat < base.toNat →
      ∃ t, exec .propose s = .next t ∧ ReqRefused s t (some .propose) .badRequest (proposeDetail f)) ∧
    (∀ base tag count ops, s.line.muted = false → s.sync.step = .inStep → readPropose f = some (base, tag, count, ops) →
      (buildEdit s.straps.number s.apply.serial base tag count ops).1.bytes.length ≤ 255 →
      base.toNat ≤ s.store.summary.version.toNat →
      ∃ t, exec .propose s = .next t ∧
        t.apply = { s.apply with serial := (buildEdit s.straps.number s.apply.serial base tag count ops).2 } ∧
        (s.line.routine.length < 8 → SameBut [.apply, .line, .port] s t ∧
          Offered s t (.edit (buildEdit s.straps.number s.apply.serial base tag count ops).1)) ∧
        (8 ≤ s.line.routine.length → SameBut [.apply, .port] s t ∧ t.port =
          ({ s.port with requests := s.port.requests.tail, inHand := false } : Port).post
            (.reqRefused (some .propose) .queueFull (proposeDetail f))))

/-- The six air requests of a director in step, not muted (R201): each offers its message, with the frame now, or now plus the lead
for a TAKE, which one byte gives, the model's choice (log 8). TAKE and HOLD need usable gallery time. Of each, the checks in their
order (R204): director, muted, in step, the form, for TAKE and HOLD usable gallery time, a place. -/
def Obligations.AirRequestsOfferOrRefused : Prop :=
  (∀ s : State, s.straps.directorCapable = true → s.line.muted = false → s.sync.step = .inStep → s.line.urgent.length < 4 →
    (∀ f id, s.asked .standby f → readId f = some id →
      ∃ t, exec .standbyRequest s = .next t ∧ Offered s t (.air 0 (.standby id)) ∧ SameBut [.line, .port] s t) ∧
    (∀ f id lead short, s.asked .take f → readTake f = some (id, lead, short) → s.usable = true →
      ∃ t, exec .takeRequest s = .next t ∧ Offered s t (.air 0 (.take id (s.now + BitVec.ofNat 32 lead) short)) ∧
        SameBut [.line, .port] s t) ∧
    (s.asked .hold [] → s.usable = true →
      ∃ t, exec .holdRequest s = .next t ∧ Offered s t (.air 0 (.hold s.now)) ∧ SameBut [.line, .port] s t) ∧
    (s.asked .resume [] →
      ∃ t, exec .resumeRequest s = .next t ∧ Offered s t (.air 0 (.resume s.now)) ∧ SameBut [.line, .port] s t) ∧
    (∀ f id, s.asked .skip f → readId f = some id →
      ∃ t, exec .skipRequest s = .next t ∧ Offered s t (.air 0 (.skip id)) ∧ SameBut [.line, .port] s t) ∧
    (s.asked .close [] →
      ∃ t, exec .closeRequest s = .next t ∧ Offered s t (.air 0 (.close s.now)) ∧ SameBut [.line, .port] s t)) ∧
  ∀ x ∈ airRows, ∀ (s : State) (f : List Byte), s.asked x.1 f → ∃ t, exec x.2 s = .next t ∧
    let refused := fun why => ReqRefused s t (some x.1) why (x.1.detail f)
    let timed := x.1 = .take ∨ x.1 = .hold
    (s.straps.directorCapable = false → refused .notDirector) ∧
    (s.straps.directorCapable = true → s.line.muted = true → refused .muted) ∧
    (s.straps.directorCapable = true → s.line.muted = false →
      (s.sync.step ≠ .inStep → refused .notInStep) ∧
      (s.sync.step = .inStep → x.1.readable f = false → refused .badRequest) ∧
      (s.sync.step = .inStep → x.1.readable f = true → timed → s.usable = false → refused .notLocked) ∧
      (s.sync.step = .inStep → x.1.readable f = true → (timed → s.usable = true) → 4 ≤ s.line.urgent.length → refused .queueFull))

/-- RELAY and YIELD requests (R202): a RELAY to 0-31 but this station, 64-127 or 255, of 1 to 240 bytes, is offered, any other
refused; a YIELD of an ACTIVE with none in course is offered to its partner, and refused for want of a place leaves the yield state
NONE (R184). The checks before, in their order (R204): for RELAY muted, for YIELD paired, muted, ACTIVE, none in course. -/
def Obligations.RelayAndYieldRequests : Prop :=
  ∀ s : State,
    (∀ f, s.asked .relay f → s.line.muted = true →
      ∃ t, exec .relayRequest s = .next t ∧ ReqRefused s t (some .relay) .muted .none) ∧
    (s.line.muted = false →
      (∀ (d : Byte) (data : List Byte), s.asked .relay (d :: data) →
        (d.toNat < 32 ∧ d.toNat ≠ s.straps.number.val) ∨ (64 ≤ d.toNat ∧ d.toNat ≤ 127) ∨ d = 255 →
        1 ≤ data.length → data.length ≤ 240 → ∃ t, exec .relayRequest s = .next t ∧
          (s.line.routine.length < 8 → Offered s t (.relay d data) ∧ SameBut [.line, .port] s t) ∧
          (8 ≤ s.line.routine.length → ReqRefused s t (some .relay) .queueFull .none)) ∧
      (∀ (d : Byte) (data : List Byte), s.asked .relay (d :: data) →
        ((32 ≤ d.toNat ∨ d.toNat = s.straps.number.val) ∧ (d.toNat < 64 ∨ 127 < d.toNat) ∧ d ≠ 255) ∨ data = [] ∨
          240 < data.length →
        ∃ t, exec .relayRequest s = .next t ∧ ReqRefused s t (some .relay) .badRequest .none) ∧
      (s.asked .relay [] → ∃ t, exec .relayRequest s = .next t ∧ ReqRefused s t (some .relay) .badRequest .none)) ∧
    (∀ f, s.asked .yield f → ∃ t, exec .yieldRequest s = .next t ∧
      (s.config.pairMode = .none → ReqRefused s t (some .yield) .notPaired .none) ∧
      (s.config.pairMode ≠ .none → s.line.muted = true → ReqRefused s t (some .yield) .muted .none) ∧
      (s.config.pairMode ≠ .none → s.line.muted = false →
        (s.pair.role ≠ .active → ReqRefused s t (some .yield) .notActive .none) ∧
        (s.pair.role = .active → f ≠ [] ∨ s.pair.yield ≠ .none → ReqRefused s t (some .yield) .badRequest .none) ∧
        (∀ p, s.pair.role = .active → f = [] → s.pair.yield = .none → s.config.partner = some p →
          (s.line.urgent.length < 4 → Offered s t (.yield p) ∧ t.pair = { s.pair with yield := .queued } ∧
            SameBut [.line, .pair, .port] s t) ∧
          (4 ≤ s.line.urgent.length → ReqRefused s t (some .yield) .queueFull .none ∧ t.pair.yield = .none))))

/-- The read requests in RUN (R203, R123, R156): those of the replica wait in hand for the store; the others are answered at once.
Of a length or a number that does not fit its kind each is refused with BAD_REQUEST. -/
def Obligations.ReadRequestsHandled : Prop :=
  ∀ (s : State) (f : List Byte),
    (∀ id, s.asked .readItem f → readId f = some id →
      ∃ t, exec .readItem s = .next t ∧ SameBut [.store, .port] s t ∧ t.port = { s.port with inHand := true } ∧
        (s.store.holder = none → t.store.holder = some (.itemRead id)) ∧
        (s.store.holder ≠ none → t.store.waitPort = some (.itemRead id))) ∧
    (s.asked .readOrder [] →
      ∃ t, exec .readOrder s = .next t ∧ SameBut [.store, .port] s t ∧ t.port = { s.port with inHand := true } ∧
        (s.store.holder = none → t.store.holder = some .orderRead) ∧
        (s.store.holder ≠ none → t.store.waitPort = some .orderRead)) ∧
    (∀ n, s.asked .readPeer f → readNumber f = some n → n ≠ s.straps.number →
      ∃ t, exec .readPeer s = .next t ∧ Replied s t (.peerReply (s.peer n))) ∧
    (∀ n, s.asked .readPeer f → readNumber f = some n → n = s.straps.number →
      ∃ t, exec .readPeer s = .next t ∧ Replied s t (.ownReply s.roster.lastSent s.presence s.line.record)) ∧
    (s.asked .readTiming [] → ∃ t, exec .readTiming s = .next t ∧ Replied s t (.timingReply s.timingReply)) ∧
    (∀ i, s.asked .readArmed f → readNumber f = some i →
      ∃ t, exec .readArmed s = .next t ∧ Replied s t (.armedReply (s.armedReply i.val))) ∧
    ∀ x ∈ [(ReqKind.readItem, Instr.readItem, decide (f.length = 2)), (.readOrder, .readOrder, decide (f.length = 0)),
        (.readPeer, .readPeer, (readNumber f).isSome), (.readTiming, .readTiming, decide (f.length = 0)),
        (.readArmed, .readArmed, (readNumber f).isSome)],
      s.asked x.1 f → x.2.2 = false → ∃ t, exec x.2.1 s = .next t ∧ ReqRefused s t (some x.1) .badRequest (.argument f)

/-! ## Encodings (chapter 12) -/

/-- Every well-formed message that a station sends is heard, by each other that takes its destination, as what it says: no bit of
header, payload or checks is dropped (R126, R127, R207). -/
def Obligations.TransmissionIsHeard : Prop :=
  ∀ (s : State) (n : StationNo) (m : OutMsg), m.wf → s.takesDest m.dest = true →
    s.classify ⟨(m.transmission n).drop 5, false⟩ = .good n m.dest m.heard

/-- Every well-formed item is read from its canonical bytes as itself, with its cues (R208), and a PRESENCE from its payload (R207).
-/
def Obligations.ItemAndPresenceRoundTrip : Prop :=
  (∀ i : Item, i.wf → readItem i.bytes = some i) ∧ ∀ p : Presence, p.wf → readPresence p.bytes = some p
end

