-- ==== Sys2Proof/Laws/State.lean ====
section
/-! SUPPORT. What each update of one block's record leaves in every field, and what is computed from the fields. All true by
computation. -/

namespace Sys2Proof.Machine

variable (s : State)


/-! ## modStore -/

@[simp] theorem State.modStore_run (f : Store → Store) : (s.modStore f).run = s.run := rfl
@[simp] theorem State.modStore_straps (f : Store → Store) : (s.modStore f).straps = s.straps := rfl
@[simp] theorem State.modStore_cfg (f : Store → Store) : (s.modStore f).cfg = s.cfg := rfl
@[simp] theorem State.modStore_clock (f : Store → Store) : (s.modStore f).clock = s.clock := rfl
@[simp] theorem State.modStore_store (f : Store → Store) : (s.modStore f).store = f s.store := rfl
@[simp] theorem State.modStore_apply (f : Store → Store) : (s.modStore f).apply = s.apply := rfl
@[simp] theorem State.modStore_tb (f : Store → Store) : (s.modStore f).tb = s.tb := rfl
@[simp] theorem State.modStore_sched (f : Store → Store) : (s.modStore f).sched = s.sched := rfl
@[simp] theorem State.modStore_out (f : Store → Store) : (s.modStore f).out = s.out := rfl
@[simp] theorem State.modStore_timing (f : Store → Store) : (s.modStore f).timing = s.timing := rfl
@[simp] theorem State.modStore_line (f : Store → Store) : (s.modStore f).line = s.line := rfl
@[simp] theorem State.modStore_roster (f : Store → Store) : (s.modStore f).roster = s.roster := rfl
@[simp] theorem State.modStore_sync (f : Store → Store) : (s.modStore f).sync = s.sync := rfl
@[simp] theorem State.modStore_pair (f : Store → Store) : (s.modStore f).pair = s.pair := rfl
@[simp] theorem State.modStore_port (f : Store → Store) : (s.modStore f).port = s.port := rfl
@[simp] theorem State.modStore_pending (f : Store → Store) : (s.modStore f).pending = s.pending := rfl
@[simp] theorem State.modStore_config (f : Store → Store) : (s.modStore f).config = s.config := rfl
@[simp] theorem State.modStore_isRun (f : Store → Store) : (s.modStore f).isRun = s.isRun := rfl
@[simp] theorem State.modStore_second (f : Store → Store) : (s.modStore f).second = s.second := rfl
@[simp] theorem State.modStore_isPaired (f : Store → Store) : (s.modStore f).isPaired = s.isPaired := rfl
@[simp] theorem State.modStore_owned (f : Store → Store) : (s.modStore f).owned = s.owned := rfl
@[simp] theorem State.modStore_now (f : Store → Store) : (s.modStore f).now = s.now := rfl
@[simp] theorem State.modStore_usable (f : Store → Store) : (s.modStore f).usable = s.usable := rfl

/-! ## modApply -/

@[simp] theorem State.modApply_run (f : ApplyEngine → ApplyEngine) : (s.modApply f).run = s.run := rfl
@[simp] theorem State.modApply_straps (f : ApplyEngine → ApplyEngine) : (s.modApply f).straps = s.straps := rfl
@[simp] theorem State.modApply_cfg (f : ApplyEngine → ApplyEngine) : (s.modApply f).cfg = s.cfg := rfl
@[simp] theorem State.modApply_clock (f : ApplyEngine → ApplyEngine) : (s.modApply f).clock = s.clock := rfl
@[simp] theorem State.modApply_store (f : ApplyEngine → ApplyEngine) : (s.modApply f).store = s.store := rfl
@[simp] theorem State.modApply_apply (f : ApplyEngine → ApplyEngine) : (s.modApply f).apply = f s.apply := rfl
@[simp] theorem State.modApply_tb (f : ApplyEngine → ApplyEngine) : (s.modApply f).tb = s.tb := rfl
@[simp] theorem State.modApply_sched (f : ApplyEngine → ApplyEngine) : (s.modApply f).sched = s.sched := rfl
@[simp] theorem State.modApply_out (f : ApplyEngine → ApplyEngine) : (s.modApply f).out = s.out := rfl
@[simp] theorem State.modApply_timing (f : ApplyEngine → ApplyEngine) : (s.modApply f).timing = s.timing := rfl
@[simp] theorem State.modApply_line (f : ApplyEngine → ApplyEngine) : (s.modApply f).line = s.line := rfl
@[simp] theorem State.modApply_roster (f : ApplyEngine → ApplyEngine) : (s.modApply f).roster = s.roster := rfl
@[simp] theorem State.modApply_sync (f : ApplyEngine → ApplyEngine) : (s.modApply f).sync = s.sync := rfl
@[simp] theorem State.modApply_pair (f : ApplyEngine → ApplyEngine) : (s.modApply f).pair = s.pair := rfl
@[simp] theorem State.modApply_port (f : ApplyEngine → ApplyEngine) : (s.modApply f).port = s.port := rfl
@[simp] theorem State.modApply_pending (f : ApplyEngine → ApplyEngine) : (s.modApply f).pending = s.pending := rfl
@[simp] theorem State.modApply_config (f : ApplyEngine → ApplyEngine) : (s.modApply f).config = s.config := rfl
@[simp] theorem State.modApply_isRun (f : ApplyEngine → ApplyEngine) : (s.modApply f).isRun = s.isRun := rfl
@[simp] theorem State.modApply_second (f : ApplyEngine → ApplyEngine) : (s.modApply f).second = s.second := rfl
@[simp] theorem State.modApply_isPaired (f : ApplyEngine → ApplyEngine) : (s.modApply f).isPaired = s.isPaired := rfl
@[simp] theorem State.modApply_owned (f : ApplyEngine → ApplyEngine) : (s.modApply f).owned = s.owned := rfl
@[simp] theorem State.modApply_now (f : ApplyEngine → ApplyEngine) : (s.modApply f).now = s.now := rfl
@[simp] theorem State.modApply_usable (f : ApplyEngine → ApplyEngine) : (s.modApply f).usable = s.usable := rfl

/-! ## modTb -/

@[simp] theorem State.modTb_run (f : Timebase → Timebase) : (s.modTb f).run = s.run := rfl
@[simp] theorem State.modTb_straps (f : Timebase → Timebase) : (s.modTb f).straps = s.straps := rfl
@[simp] theorem State.modTb_cfg (f : Timebase → Timebase) : (s.modTb f).cfg = s.cfg := rfl
@[simp] theorem State.modTb_clock (f : Timebase → Timebase) : (s.modTb f).clock = s.clock := rfl
@[simp] theorem State.modTb_store (f : Timebase → Timebase) : (s.modTb f).store = s.store := rfl
@[simp] theorem State.modTb_apply (f : Timebase → Timebase) : (s.modTb f).apply = s.apply := rfl
@[simp] theorem State.modTb_tb (f : Timebase → Timebase) : (s.modTb f).tb = f s.tb := rfl
@[simp] theorem State.modTb_sched (f : Timebase → Timebase) : (s.modTb f).sched = s.sched := rfl
@[simp] theorem State.modTb_out (f : Timebase → Timebase) : (s.modTb f).out = s.out := rfl
@[simp] theorem State.modTb_timing (f : Timebase → Timebase) : (s.modTb f).timing = s.timing := rfl
@[simp] theorem State.modTb_line (f : Timebase → Timebase) : (s.modTb f).line = s.line := rfl
@[simp] theorem State.modTb_roster (f : Timebase → Timebase) : (s.modTb f).roster = s.roster := rfl
@[simp] theorem State.modTb_sync (f : Timebase → Timebase) : (s.modTb f).sync = s.sync := rfl
@[simp] theorem State.modTb_pair (f : Timebase → Timebase) : (s.modTb f).pair = s.pair := rfl
@[simp] theorem State.modTb_port (f : Timebase → Timebase) : (s.modTb f).port = s.port := rfl
@[simp] theorem State.modTb_pending (f : Timebase → Timebase) : (s.modTb f).pending = s.pending := rfl
@[simp] theorem State.modTb_config (f : Timebase → Timebase) : (s.modTb f).config = s.config := rfl
@[simp] theorem State.modTb_isRun (f : Timebase → Timebase) : (s.modTb f).isRun = s.isRun := rfl
@[simp] theorem State.modTb_second (f : Timebase → Timebase) : (s.modTb f).second = s.second := rfl
@[simp] theorem State.modTb_isPaired (f : Timebase → Timebase) : (s.modTb f).isPaired = s.isPaired := rfl
@[simp] theorem State.modTb_owned (f : Timebase → Timebase) : (s.modTb f).owned = s.owned := rfl

/-! ## modSched -/

@[simp] theorem State.modSched_run (f : Scheduler → Scheduler) : (s.modSched f).run = s.run := rfl
@[simp] theorem State.modSched_straps (f : Scheduler → Scheduler) : (s.modSched f).straps = s.straps := rfl
@[simp] theorem State.modSched_cfg (f : Scheduler → Scheduler) : (s.modSched f).cfg = s.cfg := rfl
@[simp] theorem State.modSched_clock (f : Scheduler → Scheduler) : (s.modSched f).clock = s.clock := rfl
@[simp] theorem State.modSched_store (f : Scheduler → Scheduler) : (s.modSched f).store = s.store := rfl
@[simp] theorem State.modSched_apply (f : Scheduler → Scheduler) : (s.modSched f).apply = s.apply := rfl
@[simp] theorem State.modSched_tb (f : Scheduler → Scheduler) : (s.modSched f).tb = s.tb := rfl
@[simp] theorem State.modSched_sched (f : Scheduler → Scheduler) : (s.modSched f).sched = f s.sched := rfl
@[simp] theorem State.modSched_out (f : Scheduler → Scheduler) : (s.modSched f).out = s.out := rfl
@[simp] theorem State.modSched_timing (f : Scheduler → Scheduler) : (s.modSched f).timing = s.timing := rfl
@[simp] theorem State.modSched_line (f : Scheduler → Scheduler) : (s.modSched f).line = s.line := rfl
@[simp] theorem State.modSched_roster (f : Scheduler → Scheduler) : (s.modSched f).roster = s.roster := rfl
@[simp] theorem State.modSched_sync (f : Scheduler → Scheduler) : (s.modSched f).sync = s.sync := rfl
@[simp] theorem State.modSched_pair (f : Scheduler → Scheduler) : (s.modSched f).pair = s.pair := rfl
@[simp] theorem State.modSched_port (f : Scheduler → Scheduler) : (s.modSched f).port = s.port := rfl
@[simp] theorem State.modSched_pending (f : Scheduler → Scheduler) : (s.modSched f).pending = s.pending := rfl
@[simp] theorem State.modSched_config (f : Scheduler → Scheduler) : (s.modSched f).config = s.config := rfl
@[simp] theorem State.modSched_isRun (f : Scheduler → Scheduler) : (s.modSched f).isRun = s.isRun := rfl
@[simp] theorem State.modSched_second (f : Scheduler → Scheduler) : (s.modSched f).second = s.second := rfl
@[simp] theorem State.modSched_isPaired (f : Scheduler → Scheduler) : (s.modSched f).isPaired = s.isPaired := rfl
@[simp] theorem State.modSched_owned (f : Scheduler → Scheduler) : (s.modSched f).owned = s.owned := rfl
@[simp] theorem State.modSched_now (f : Scheduler → Scheduler) : (s.modSched f).now = s.now := rfl
@[simp] theorem State.modSched_usable (f : Scheduler → Scheduler) : (s.modSched f).usable = s.usable := rfl

/-! ## modOut -/

@[simp] theorem State.modOut_run (f : Output → Output) : (s.modOut f).run = s.run := rfl
@[simp] theorem State.modOut_straps (f : Output → Output) : (s.modOut f).straps = s.straps := rfl
@[simp] theorem State.modOut_cfg (f : Output → Output) : (s.modOut f).cfg = s.cfg := rfl
@[simp] theorem State.modOut_clock (f : Output → Output) : (s.modOut f).clock = s.clock := rfl
@[simp] theorem State.modOut_store (f : Output → Output) : (s.modOut f).store = s.store := rfl
@[simp] theorem State.modOut_apply (f : Output → Output) : (s.modOut f).apply = s.apply := rfl
@[simp] theorem State.modOut_tb (f : Output → Output) : (s.modOut f).tb = s.tb := rfl
@[simp] theorem State.modOut_sched (f : Output → Output) : (s.modOut f).sched = s.sched := rfl
@[simp] theorem State.modOut_out (f : Output → Output) : (s.modOut f).out = f s.out := rfl
@[simp] theorem State.modOut_timing (f : Output → Output) : (s.modOut f).timing = s.timing := rfl
@[simp] theorem State.modOut_line (f : Output → Output) : (s.modOut f).line = s.line := rfl
@[simp] theorem State.modOut_roster (f : Output → Output) : (s.modOut f).roster = s.roster := rfl
@[simp] theorem State.modOut_sync (f : Output → Output) : (s.modOut f).sync = s.sync := rfl
@[simp] theorem State.modOut_pair (f : Output → Output) : (s.modOut f).pair = s.pair := rfl
@[simp] theorem State.modOut_port (f : Output → Output) : (s.modOut f).port = s.port := rfl
@[simp] theorem State.modOut_pending (f : Output → Output) : (s.modOut f).pending = s.pending := rfl
@[simp] theorem State.modOut_config (f : Output → Output) : (s.modOut f).config = s.config := rfl
@[simp] theorem State.modOut_isRun (f : Output → Output) : (s.modOut f).isRun = s.isRun := rfl
@[simp] theorem State.modOut_second (f : Output → Output) : (s.modOut f).second = s.second := rfl
@[simp] theorem State.modOut_isPaired (f : Output → Output) : (s.modOut f).isPaired = s.isPaired := rfl
@[simp] theorem State.modOut_owned (f : Output → Output) : (s.modOut f).owned = s.owned := rfl
@[simp] theorem State.modOut_now (f : Output → Output) : (s.modOut f).now = s.now := rfl
@[simp] theorem State.modOut_usable (f : Output → Output) : (s.modOut f).usable = s.usable := rfl

/-! ## modTiming -/

@[simp] theorem State.modTiming_run (f : Timing → Timing) : (s.modTiming f).run = s.run := rfl
@[simp] theorem State.modTiming_straps (f : Timing → Timing) : (s.modTiming f).straps = s.straps := rfl
@[simp] theorem State.modTiming_cfg (f : Timing → Timing) : (s.modTiming f).cfg = s.cfg := rfl
@[simp] theorem State.modTiming_clock (f : Timing → Timing) : (s.modTiming f).clock = s.clock := rfl
@[simp] theorem State.modTiming_store (f : Timing → Timing) : (s.modTiming f).store = s.store := rfl
@[simp] theorem State.modTiming_apply (f : Timing → Timing) : (s.modTiming f).apply = s.apply := rfl
@[simp] theorem State.modTiming_tb (f : Timing → Timing) : (s.modTiming f).tb = s.tb := rfl
@[simp] theorem State.modTiming_sched (f : Timing → Timing) : (s.modTiming f).sched = s.sched := rfl
@[simp] theorem State.modTiming_out (f : Timing → Timing) : (s.modTiming f).out = s.out := rfl
@[simp] theorem State.modTiming_timing (f : Timing → Timing) : (s.modTiming f).timing = f s.timing := rfl
@[simp] theorem State.modTiming_line (f : Timing → Timing) : (s.modTiming f).line = s.line := rfl
@[simp] theorem State.modTiming_roster (f : Timing → Timing) : (s.modTiming f).roster = s.roster := rfl
@[simp] theorem State.modTiming_sync (f : Timing → Timing) : (s.modTiming f).sync = s.sync := rfl
@[simp] theorem State.modTiming_pair (f : Timing → Timing) : (s.modTiming f).pair = s.pair := rfl
@[simp] theorem State.modTiming_port (f : Timing → Timing) : (s.modTiming f).port = s.port := rfl
@[simp] theorem State.modTiming_pending (f : Timing → Timing) : (s.modTiming f).pending = s.pending := rfl
@[simp] theorem State.modTiming_config (f : Timing → Timing) : (s.modTiming f).config = s.config := rfl
@[simp] theorem State.modTiming_isRun (f : Timing → Timing) : (s.modTiming f).isRun = s.isRun := rfl
@[simp] theorem State.modTiming_second (f : Timing → Timing) : (s.modTiming f).second = s.second := rfl
@[simp] theorem State.modTiming_isPaired (f : Timing → Timing) : (s.modTiming f).isPaired = s.isPaired := rfl
@[simp] theorem State.modTiming_owned (f : Timing → Timing) : (s.modTiming f).owned = s.owned := rfl
@[simp] theorem State.modTiming_now (f : Timing → Timing) : (s.modTiming f).now = s.now := rfl
@[simp] theorem State.modTiming_usable (f : Timing → Timing) : (s.modTiming f).usable = s.usable := rfl

/-! ## modLine -/

@[simp] theorem State.modLine_run (f : Line → Line) : (s.modLine f).run = s.run := rfl
@[simp] theorem State.modLine_straps (f : Line → Line) : (s.modLine f).straps = s.straps := rfl
@[simp] theorem State.modLine_cfg (f : Line → Line) : (s.modLine f).cfg = s.cfg := rfl
@[simp] theorem State.modLine_clock (f : Line → Line) : (s.modLine f).clock = s.clock := rfl
@[simp] theorem State.modLine_store (f : Line → Line) : (s.modLine f).store = s.store := rfl
@[simp] theorem State.modLine_apply (f : Line → Line) : (s.modLine f).apply = s.apply := rfl
@[simp] theorem State.modLine_tb (f : Line → Line) : (s.modLine f).tb = s.tb := rfl
@[simp] theorem State.modLine_sched (f : Line → Line) : (s.modLine f).sched = s.sched := rfl
@[simp] theorem State.modLine_out (f : Line → Line) : (s.modLine f).out = s.out := rfl
@[simp] theorem State.modLine_timing (f : Line → Line) : (s.modLine f).timing = s.timing := rfl
@[simp] theorem State.modLine_line (f : Line → Line) : (s.modLine f).line = f s.line := rfl
@[simp] theorem State.modLine_roster (f : Line → Line) : (s.modLine f).roster = s.roster := rfl
@[simp] theorem State.modLine_sync (f : Line → Line) : (s.modLine f).sync = s.sync := rfl
@[simp] theorem State.modLine_pair (f : Line → Line) : (s.modLine f).pair = s.pair := rfl
@[simp] theorem State.modLine_port (f : Line → Line) : (s.modLine f).port = s.port := rfl
@[simp] theorem State.modLine_pending (f : Line → Line) : (s.modLine f).pending = s.pending := rfl
@[simp] theorem State.modLine_config (f : Line → Line) : (s.modLine f).config = s.config := rfl
@[simp] theorem State.modLine_isRun (f : Line → Line) : (s.modLine f).isRun = s.isRun := rfl
@[simp] theorem State.modLine_second (f : Line → Line) : (s.modLine f).second = s.second := rfl
@[simp] theorem State.modLine_isPaired (f : Line → Line) : (s.modLine f).isPaired = s.isPaired := rfl
@[simp] theorem State.modLine_owned (f : Line → Line) : (s.modLine f).owned = s.owned := rfl
@[simp] theorem State.modLine_now (f : Line → Line) : (s.modLine f).now = s.now := rfl
@[simp] theorem State.modLine_usable (f : Line → Line) : (s.modLine f).usable = s.usable := rfl

/-! ## modRoster -/

@[simp] theorem State.modRoster_run (f : Roster → Roster) : (s.modRoster f).run = s.run := rfl
@[simp] theorem State.modRoster_straps (f : Roster → Roster) : (s.modRoster f).straps = s.straps := rfl
@[simp] theorem State.modRoster_cfg (f : Roster → Roster) : (s.modRoster f).cfg = s.cfg := rfl
@[simp] theorem State.modRoster_clock (f : Roster → Roster) : (s.modRoster f).clock = s.clock := rfl
@[simp] theorem State.modRoster_store (f : Roster → Roster) : (s.modRoster f).store = s.store := rfl
@[simp] theorem State.modRoster_apply (f : Roster → Roster) : (s.modRoster f).apply = s.apply := rfl
@[simp] theorem State.modRoster_tb (f : Roster → Roster) : (s.modRoster f).tb = s.tb := rfl
@[simp] theorem State.modRoster_sched (f : Roster → Roster) : (s.modRoster f).sched = s.sched := rfl
@[simp] theorem State.modRoster_out (f : Roster → Roster) : (s.modRoster f).out = s.out := rfl
@[simp] theorem State.modRoster_timing (f : Roster → Roster) : (s.modRoster f).timing = s.timing := rfl
@[simp] theorem State.modRoster_line (f : Roster → Roster) : (s.modRoster f).line = s.line := rfl
@[simp] theorem State.modRoster_roster (f : Roster → Roster) : (s.modRoster f).roster = f s.roster := rfl
@[simp] theorem State.modRoster_sync (f : Roster → Roster) : (s.modRoster f).sync = s.sync := rfl
@[simp] theorem State.modRoster_pair (f : Roster → Roster) : (s.modRoster f).pair = s.pair := rfl
@[simp] theorem State.modRoster_port (f : Roster → Roster) : (s.modRoster f).port = s.port := rfl
@[simp] theorem State.modRoster_pending (f : Roster → Roster) : (s.modRoster f).pending = s.pending := rfl
@[simp] theorem State.modRoster_config (f : Roster → Roster) : (s.modRoster f).config = s.config := rfl
@[simp] theorem State.modRoster_isRun (f : Roster → Roster) : (s.modRoster f).isRun = s.isRun := rfl
@[simp] theorem State.modRoster_second (f : Roster → Roster) : (s.modRoster f).second = s.second := rfl
@[simp] theorem State.modRoster_isPaired (f : Roster → Roster) : (s.modRoster f).isPaired = s.isPaired := rfl
@[simp] theorem State.modRoster_owned (f : Roster → Roster) : (s.modRoster f).owned = s.owned := rfl
@[simp] theorem State.modRoster_now (f : Roster → Roster) : (s.modRoster f).now = s.now := rfl
@[simp] theorem State.modRoster_usable (f : Roster → Roster) : (s.modRoster f).usable = s.usable := rfl

/-! ## modSync -/

@[simp] theorem State.modSync_run (f : Sync → Sync) : (s.modSync f).run = s.run := rfl
@[simp] theorem State.modSync_straps (f : Sync → Sync) : (s.modSync f).straps = s.straps := rfl
@[simp] theorem State.modSync_cfg (f : Sync → Sync) : (s.modSync f).cfg = s.cfg := rfl
@[simp] theorem State.modSync_clock (f : Sync → Sync) : (s.modSync f).clock = s.clock := rfl
@[simp] theorem State.modSync_store (f : Sync → Sync) : (s.modSync f).store = s.store := rfl
@[simp] theorem State.modSync_apply (f : Sync → Sync) : (s.modSync f).apply = s.apply := rfl
@[simp] theorem State.modSync_tb (f : Sync → Sync) : (s.modSync f).tb = s.tb := rfl
@[simp] theorem State.modSync_sched (f : Sync → Sync) : (s.modSync f).sched = s.sched := rfl
@[simp] theorem State.modSync_out (f : Sync → Sync) : (s.modSync f).out = s.out := rfl
@[simp] theorem State.modSync_timing (f : Sync → Sync) : (s.modSync f).timing = s.timing := rfl
@[simp] theorem State.modSync_line (f : Sync → Sync) : (s.modSync f).line = s.line := rfl
@[simp] theorem State.modSync_roster (f : Sync → Sync) : (s.modSync f).roster = s.roster := rfl
@[simp] theorem State.modSync_sync (f : Sync → Sync) : (s.modSync f).sync = f s.sync := rfl
@[simp] theorem State.modSync_pair (f : Sync → Sync) : (s.modSync f).pair = s.pair := rfl
@[simp] theorem State.modSync_port (f : Sync → Sync) : (s.modSync f).port = s.port := rfl
@[simp] theorem State.modSync_pending (f : Sync → Sync) : (s.modSync f).pending = s.pending := rfl
@[simp] theorem State.modSync_config (f : Sync → Sync) : (s.modSync f).config = s.config := rfl
@[simp] theorem State.modSync_isRun (f : Sync → Sync) : (s.modSync f).isRun = s.isRun := rfl
@[simp] theorem State.modSync_second (f : Sync → Sync) : (s.modSync f).second = s.second := rfl
@[simp] theorem State.modSync_isPaired (f : Sync → Sync) : (s.modSync f).isPaired = s.isPaired := rfl
@[simp] theorem State.modSync_owned (f : Sync → Sync) : (s.modSync f).owned = s.owned := rfl
@[simp] theorem State.modSync_now (f : Sync → Sync) : (s.modSync f).now = s.now := rfl
@[simp] theorem State.modSync_usable (f : Sync → Sync) : (s.modSync f).usable = s.usable := rfl

/-! ## modPair -/

@[simp] theorem State.modPair_run (f : Pair → Pair) : (s.modPair f).run = s.run := rfl
@[simp] theorem State.modPair_straps (f : Pair → Pair) : (s.modPair f).straps = s.straps := rfl
@[simp] theorem State.modPair_cfg (f : Pair → Pair) : (s.modPair f).cfg = s.cfg := rfl
@[simp] theorem State.modPair_clock (f : Pair → Pair) : (s.modPair f).clock = s.clock := rfl
@[simp] theorem State.modPair_store (f : Pair → Pair) : (s.modPair f).store = s.store := rfl
@[simp] theorem State.modPair_apply (f : Pair → Pair) : (s.modPair f).apply = s.apply := rfl
@[simp] theorem State.modPair_tb (f : Pair → Pair) : (s.modPair f).tb = s.tb := rfl
@[simp] theorem State.modPair_sched (f : Pair → Pair) : (s.modPair f).sched = s.sched := rfl
@[simp] theorem State.modPair_out (f : Pair → Pair) : (s.modPair f).out = s.out := rfl
@[simp] theorem State.modPair_timing (f : Pair → Pair) : (s.modPair f).timing = s.timing := rfl
@[simp] theorem State.modPair_line (f : Pair → Pair) : (s.modPair f).line = s.line := rfl
@[simp] theorem State.modPair_roster (f : Pair → Pair) : (s.modPair f).roster = s.roster := rfl
@[simp] theorem State.modPair_sync (f : Pair → Pair) : (s.modPair f).sync = s.sync := rfl
@[simp] theorem State.modPair_pair (f : Pair → Pair) : (s.modPair f).pair = f s.pair := rfl
@[simp] theorem State.modPair_port (f : Pair → Pair) : (s.modPair f).port = s.port := rfl
@[simp] theorem State.modPair_pending (f : Pair → Pair) : (s.modPair f).pending = s.pending := rfl
@[simp] theorem State.modPair_config (f : Pair → Pair) : (s.modPair f).config = s.config := rfl
@[simp] theorem State.modPair_isRun (f : Pair → Pair) : (s.modPair f).isRun = s.isRun := rfl
@[simp] theorem State.modPair_second (f : Pair → Pair) : (s.modPair f).second = s.second := rfl
@[simp] theorem State.modPair_isPaired (f : Pair → Pair) : (s.modPair f).isPaired = s.isPaired := rfl
@[simp] theorem State.modPair_owned (f : Pair → Pair) : (s.modPair f).owned = s.owned := rfl
@[simp] theorem State.modPair_now (f : Pair → Pair) : (s.modPair f).now = s.now := rfl
@[simp] theorem State.modPair_usable (f : Pair → Pair) : (s.modPair f).usable = s.usable := rfl

/-! ## modPort -/

@[simp] theorem State.modPort_run (f : Port → Port) : (s.modPort f).run = s.run := rfl
@[simp] theorem State.modPort_straps (f : Port → Port) : (s.modPort f).straps = s.straps := rfl
@[simp] theorem State.modPort_cfg (f : Port → Port) : (s.modPort f).cfg = s.cfg := rfl
@[simp] theorem State.modPort_clock (f : Port → Port) : (s.modPort f).clock = s.clock := rfl
@[simp] theorem State.modPort_store (f : Port → Port) : (s.modPort f).store = s.store := rfl
@[simp] theorem State.modPort_apply (f : Port → Port) : (s.modPort f).apply = s.apply := rfl
@[simp] theorem State.modPort_tb (f : Port → Port) : (s.modPort f).tb = s.tb := rfl
@[simp] theorem State.modPort_sched (f : Port → Port) : (s.modPort f).sched = s.sched := rfl
@[simp] theorem State.modPort_out (f : Port → Port) : (s.modPort f).out = s.out := rfl
@[simp] theorem State.modPort_timing (f : Port → Port) : (s.modPort f).timing = s.timing := rfl
@[simp] theorem State.modPort_line (f : Port → Port) : (s.modPort f).line = s.line := rfl
@[simp] theorem State.modPort_roster (f : Port → Port) : (s.modPort f).roster = s.roster := rfl
@[simp] theorem State.modPort_sync (f : Port → Port) : (s.modPort f).sync = s.sync := rfl
@[simp] theorem State.modPort_pair (f : Port → Port) : (s.modPort f).pair = s.pair := rfl
@[simp] theorem State.modPort_port (f : Port → Port) : (s.modPort f).port = f s.port := rfl
@[simp] theorem State.modPort_pending (f : Port → Port) : (s.modPort f).pending = s.pending := rfl
@[simp] theorem State.modPort_config (f : Port → Port) : (s.modPort f).config = s.config := rfl
@[simp] theorem State.modPort_isRun (f : Port → Port) : (s.modPort f).isRun = s.isRun := rfl
@[simp] theorem State.modPort_second (f : Port → Port) : (s.modPort f).second = s.second := rfl
@[simp] theorem State.modPort_isPaired (f : Port → Port) : (s.modPort f).isPaired = s.isPaired := rfl
@[simp] theorem State.modPort_owned (f : Port → Port) : (s.modPort f).owned = s.owned := rfl
@[simp] theorem State.modPort_now (f : Port → Port) : (s.modPort f).now = s.now := rfl
@[simp] theorem State.modPort_usable (f : Port → Port) : (s.modPort f).usable = s.usable := rfl

/-! ## elapse -/

@[simp] theorem State.elapse_run (d : Nat) : (s.elapse d).run = s.run := rfl
@[simp] theorem State.elapse_straps (d : Nat) : (s.elapse d).straps = s.straps := rfl
@[simp] theorem State.elapse_cfg (d : Nat) : (s.elapse d).cfg = s.cfg := rfl
@[simp] theorem State.elapse_clock (d : Nat) : (s.elapse d).clock = s.clock + d := rfl
@[simp] theorem State.elapse_store (d : Nat) : (s.elapse d).store = s.store := rfl
@[simp] theorem State.elapse_apply (d : Nat) : (s.elapse d).apply = s.apply := rfl
@[simp] theorem State.elapse_tb (d : Nat) : (s.elapse d).tb = s.tb := rfl
@[simp] theorem State.elapse_sched (d : Nat) : (s.elapse d).sched = s.sched := rfl
@[simp] theorem State.elapse_out (d : Nat) : (s.elapse d).out = s.out := rfl
@[simp] theorem State.elapse_timing (d : Nat) : (s.elapse d).timing = s.timing := rfl
@[simp] theorem State.elapse_line (d : Nat) : (s.elapse d).line = s.line := rfl
@[simp] theorem State.elapse_roster (d : Nat) : (s.elapse d).roster = s.roster := rfl
@[simp] theorem State.elapse_sync (d : Nat) : (s.elapse d).sync = s.sync := rfl
@[simp] theorem State.elapse_pair (d : Nat) : (s.elapse d).pair = s.pair := rfl
@[simp] theorem State.elapse_port (d : Nat) : (s.elapse d).port = s.port := rfl
@[simp] theorem State.elapse_pending (d : Nat) : (s.elapse d).pending = s.pending := rfl
@[simp] theorem State.elapse_config (d : Nat) : (s.elapse d).config = s.config := rfl
@[simp] theorem State.elapse_isRun (d : Nat) : (s.elapse d).isRun = s.isRun := rfl
@[simp] theorem State.elapse_second (d : Nat) : (s.elapse d).second = s.second := rfl
@[simp] theorem State.elapse_isPaired (d : Nat) : (s.elapse d).isPaired = s.isPaired := rfl
@[simp] theorem State.elapse_owned (d : Nat) : (s.elapse d).owned = s.owned := rfl
@[simp] theorem State.elapse_now (d : Nat) : (s.elapse d).now = s.now := rfl
@[simp] theorem State.elapse_usable (d : Nat) : (s.elapse d).usable = s.usable := rfl

/-! ## emit -/

@[simp] theorem State.emit_run (f : Env → Emit → Emit) : (s.emit f).run = s.run := rfl
@[simp] theorem State.emit_straps (f : Env → Emit → Emit) : (s.emit f).straps = s.straps := rfl
@[simp] theorem State.emit_cfg (f : Env → Emit → Emit) : (s.emit f).cfg = s.cfg := rfl
@[simp] theorem State.emit_clock (f : Env → Emit → Emit) : (s.emit f).clock = s.clock := rfl
@[simp] theorem State.emit_store (f : Env → Emit → Emit) : (s.emit f).store = s.store := rfl
@[simp] theorem State.emit_apply (f : Env → Emit → Emit) : (s.emit f).apply = s.apply := rfl
@[simp] theorem State.emit_tb (f : Env → Emit → Emit) : (s.emit f).tb = s.tb := rfl
@[simp] theorem State.emit_sched (f : Env → Emit → Emit) : (s.emit f).sched = (f s.env ⟨s.sched, s.out, s.port⟩).sched := rfl
@[simp] theorem State.emit_out (f : Env → Emit → Emit) : (s.emit f).out = (f s.env ⟨s.sched, s.out, s.port⟩).out := rfl
@[simp] theorem State.emit_timing (f : Env → Emit → Emit) : (s.emit f).timing = s.timing := rfl
@[simp] theorem State.emit_line (f : Env → Emit → Emit) : (s.emit f).line = s.line := rfl
@[simp] theorem State.emit_roster (f : Env → Emit → Emit) : (s.emit f).roster = s.roster := rfl
@[simp] theorem State.emit_sync (f : Env → Emit → Emit) : (s.emit f).sync = s.sync := rfl
@[simp] theorem State.emit_pair (f : Env → Emit → Emit) : (s.emit f).pair = s.pair := rfl
@[simp] theorem State.emit_port (f : Env → Emit → Emit) : (s.emit f).port = (f s.env ⟨s.sched, s.out, s.port⟩).port := rfl
@[simp] theorem State.emit_pending (f : Env → Emit → Emit) : (s.emit f).pending = s.pending := rfl
@[simp] theorem State.emit_config (f : Env → Emit → Emit) : (s.emit f).config = s.config := rfl
@[simp] theorem State.emit_isRun (f : Env → Emit → Emit) : (s.emit f).isRun = s.isRun := rfl
@[simp] theorem State.emit_second (f : Env → Emit → Emit) : (s.emit f).second = s.second := rfl
@[simp] theorem State.emit_isPaired (f : Env → Emit → Emit) : (s.emit f).isPaired = s.isPaired := rfl
@[simp] theorem State.emit_owned (f : Env → Emit → Emit) : (s.emit f).owned = s.owned := rfl
@[simp] theorem State.emit_now (f : Env → Emit → Emit) : (s.emit f).now = s.now := rfl
@[simp] theorem State.emit_usable (f : Env → Emit → Emit) : (s.emit f).usable = s.usable := rfl

/-! ## followLights -/

@[simp] theorem State.followLights_run : s.followLights.run = s.run := by unfold State.followLights; split <;> rfl
@[simp] theorem State.followLights_straps : s.followLights.straps = s.straps := by unfold State.followLights; split <;> rfl
@[simp] theorem State.followLights_cfg : s.followLights.cfg = s.cfg := by unfold State.followLights; split <;> rfl
@[simp] theorem State.followLights_clock : s.followLights.clock = s.clock := by unfold State.followLights; split <;> rfl
@[simp] theorem State.followLights_store : s.followLights.store = s.store := by unfold State.followLights; split <;> rfl
@[simp] theorem State.followLights_apply : s.followLights.apply = s.apply := by unfold State.followLights; split <;> rfl
@[simp] theorem State.followLights_tb : s.followLights.tb = s.tb := by unfold State.followLights; split <;> rfl
@[simp] theorem State.followLights_sched : s.followLights.sched = s.sched := by unfold State.followLights; split <;> rfl
@[simp] theorem State.followLights_timing : s.followLights.timing = s.timing := by unfold State.followLights; split <;> rfl
@[simp] theorem State.followLights_line : s.followLights.line = s.line := by unfold State.followLights; split <;> rfl
@[simp] theorem State.followLights_roster : s.followLights.roster = s.roster := by unfold State.followLights; split <;> rfl
@[simp] theorem State.followLights_sync : s.followLights.sync = s.sync := by unfold State.followLights; split <;> rfl
@[simp] theorem State.followLights_pair : s.followLights.pair = s.pair := by unfold State.followLights; split <;> rfl
@[simp] theorem State.followLights_port : s.followLights.port = s.port := by unfold State.followLights; split <;> rfl
@[simp] theorem State.followLights_pending : s.followLights.pending = s.pending := by unfold State.followLights; split <;> rfl
@[simp] theorem State.followLights_pips : s.followLights.out.pips = s.out.pips := by unfold State.followLights; split <;> rfl
@[simp] theorem State.followLights_samples : s.followLights.out.samples = s.out.samples := by unfold State.followLights; split <;> rfl
@[simp] theorem State.followLights_usable : s.followLights.usable = s.usable := by unfold State.followLights; split <;> rfl

end Sys2Proof.Machine
end

