-- ==== Sys2Proof/Laws/Bounds.lean ====
section
/-! SUPPORT. What keeps the queues and tables within their places, and the names in the armed table distinct, operation by
operation. -/

namespace Sys2Proof.Machine

/-! ## Notices -/

theorem Port.post_within {p : Port} (h : p.within) (n : Notice) : (p.post n).within := by
  obtain ⟨hu, hr, hq⟩ := h
  unfold Port.post
  split <;> split <;> refine ⟨?_, ?_, ?_⟩ <;> simp_all <;> omega

/-! ## The armed table -/

theorem insertEntry_length (env : Env) (e : Entry) (es : List Entry) : (insertEntry env e es).length = es.length + 1 := by
  induction es with
  | nil => rfl
  | cons x r ih => unfold insertEntry; split <;> simp [ih]

theorem mem_insertEntry {env : Env} {e x : Entry} {es : List Entry} : x ∈ insertEntry env e es ↔ x = e ∨ x ∈ es := by
  induction es with
  | nil => simp [insertEntry]
  | cons y r ih =>
    unfold insertEntry
    split
    · simp
    · simp only [List.mem_cons, ih, or_left_comm]

@[simp] theorem sortEntries_length (env : Env) (es : List Entry) : (sortEntries env es).length = es.length := by
  induction es with
  | nil => rfl
  | cons x r ih => simpa [sortEntries, insertEntry_length] using ih

/-- Sorting neither adds nor loses an entry. -/
@[simp] theorem mem_sortEntries {env : Env} {x : Entry} {es : List Entry} : x ∈ sortEntries env es ↔ x ∈ es := by
  induction es with
  | nil => simp [sortEntries]
  | cons y r ih =>
    have : sortEntries env (y :: r) = insertEntry env y (sortEntries env r) := rfl
    rw [this, mem_insertEntry, ih, List.mem_cons]

theorem insertEntry_perm (env : Env) (e : Entry) (es : List Entry) : (insertEntry env e es).Perm (e :: es) := by
  induction es with
  | nil => exact .refl _
  | cons x r ih =>
    unfold insertEntry
    split
    · exact .refl _
    · exact (ih.cons x).trans (.swap e x r)

theorem sortEntries_perm (env : Env) (es : List Entry) : (sortEntries env es).Perm es := by
  induction es with
  | nil => exact .refl _
  | cons x r ih => exact (insertEntry_perm env x _).trans (ih.cons x)

/-- No two entries of one name (R72). -/
abbrev distinctNames (es : List Entry) : Prop := (es.map Entry.key).Nodup

/-- Sorting changes no name. -/
@[simp] theorem sortEntries_names {env : Env} {es : List Entry} : distinctNames (sortEntries env es) ↔ distinctNames es :=
  ((sortEntries_perm env es).map _).nodup_iff

/-- Nor does a change of entries that leaves each its name. -/
theorem map_names {g : Entry → Entry} (hg : ∀ e, (g e).key = e.key) {es : List Entry} :
    distinctNames (es.map g) ↔ distinctNames es := by
  rw [distinctNames, List.map_map, show Entry.key ∘ g = Entry.key from funext hg]

theorem filter_names {p : Entry → Bool} {es : List Entry} (h : distinctNames es) : distinctNames (es.filter p) :=
  h.sublist (List.filter_sublist.map _)

@[simp] theorem Entry.hold_key (env : Env) (h : Frame) (e : Entry) : (e.hold env h).key = e.key := by
  unfold Entry.hold; extract_lets; split <;> rfl

@[simp] theorem Entry.resume_key (d h : Word) (e : Entry) : (e.resume d h).key = e.key := by
  unfold Entry.resume; split <;> rfl

/-! ## The scheduler's part -/

/-- A property of the scheduler's part. -/
def Emit.Sat (P : Emit → Prop) (m : Emit) : Prop := P m

/-- A property that every scheduler action keeps: posting a notice keeps it, a change of the output unit keeps it, and a change
of the scheduler's own record that does not lengthen its two lists beyond their places and leaves distinct names distinct. -/
structure Emit.Closed (P : Emit → Prop) : Prop where
  post : ∀ m n, P m → P (m.post n)
  out : ∀ m f, P m → P (m.modOut f)
  sched : ∀ m f, P m → (f m.sched).armed.length ≤ max m.sched.armed.length armedPlaces →
    (f m.sched).shadowList.length ≤ max m.sched.shadowList.length shadowPlaces →
    (distinctNames m.sched.armed → distinctNames (f m.sched).armed) → P (m.modSched f)

section
variable {P : Emit → Prop} {m : Emit}

@[simp] theorem Emit.post_sat (hP : Emit.Closed P) (h : m.Sat P) (n : Notice) : (m.post n).Sat P := hP.post m n h

@[simp] theorem Emit.modOut_sat (hP : Emit.Closed P) (h : m.Sat P) (f : Output → Output) : (m.modOut f).Sat P := hP.out m f h

@[simp] theorem Emit.modSched_sat (hP : Emit.Closed P) {f : Scheduler → Scheduler} (h : m.Sat P)
    (ha : (f m.sched).armed.length ≤ m.sched.armed.length)
    (hl : (f m.sched).shadowList.length ≤ m.sched.shadowList.length)
    (hn : distinctNames m.sched.armed → distinctNames (f m.sched).armed) : (m.modSched f).Sat P :=
  hP.sched m f h (Nat.le_trans ha (Nat.le_max_left _ _)) (Nat.le_trans hl (Nat.le_max_left _ _)) hn

@[simp] theorem Emit.setArmed_sat (hP : Emit.Closed P) {env : Env} {es : List Entry} (h : m.Sat P)
    (hl : es.length ≤ m.sched.armed.length) (hn : distinctNames m.sched.armed → distinctNames es) : (m.setArmed env es).Sat P :=
  Emit.modSched_sat hP h (by simpa using hl) (Nat.le_refl _) fun k => sortEntries_names.mpr (hn k)

/-- Every entry changed, each keeping its name. -/
@[simp] theorem Emit.mapArmed_sat (hP : Emit.Closed P) {env : Env} {g : Entry → Entry} (h : m.Sat P)
    (hg : ∀ e, (g e).key = e.key) : (m.setArmed env (m.sched.armed.map g)).Sat P :=
  Emit.setArmed_sat hP h (by simp) (map_names hg).mpr

@[simp] theorem Emit.replace_sat (hP : Emit.Closed P) (h : m.Sat P) (env : Env) (e : Entry) : (m.replace env e).Sat P :=
  Emit.mapArmed_sat hP h fun x => by split <;> simp [*]

@[simp] theorem Emit.drop_sat (hP : Emit.Closed P) (h : m.Sat P) (env : Env) (k : EntryKey) : (m.drop env k).Sat P :=
  Emit.setArmed_sat hP h (List.length_filter_le _ _) filter_names

@[simp] theorem Emit.put_sat (hP : Emit.Closed P) (h : m.Sat P) (env : Env) (e : Entry) : (m.put env e).Sat P := by
  unfold Emit.put
  simp only
  split
  · next hl =>
    refine hP.sched _ _ h (Nat.le_trans ?_ (Nat.le_max_right _ _)) (Nat.le_max_left _ _) fun k => sortEntries_names.mpr ?_
    · rw [sortEntries_length]
      exact hl
    · refine List.nodup_cons.mpr ⟨?_, filter_names k⟩
      simp [List.mem_map]
  · exact h

@[simp] theorem Emit.setResource_sat (hP : Emit.Closed P) (h : m.Sat P) (r : Fin 16) (x : Resource) :
    (m.setResource r x).Sat P := Emit.modSched_sat hP h (Nat.le_refl _) (Nat.le_refl _) id

@[simp] theorem Emit.recoverAll_sat (hP : Emit.Closed P) (h : m.Sat P) (env : Env) : (m.recoverAll env).Sat P :=
  Emit.modSched_sat hP h (Nat.le_refl _) (Nat.le_refl _) id

@[simp] theorem Scheduler.keepRecords_sat (hP : Emit.Closed P) (h : m.Sat P) (p : ShadowRec → Bool) :
    (m.modSched (·.keepRecords p)).Sat P := Emit.modSched_sat hP h (Nat.le_refl _) (List.length_filter_le _ _) id

@[simp] theorem Emit.record_sat (hP : Emit.Closed P) (h : m.Sat P) (env : Env) (e : Entry) : (m.record env e).Sat P := by
  unfold Emit.record
  split
  · exact h
  · split
    · exact h
    · refine hP.sched _ _ h ?_ ?_ ?_ <;> split
      · exact Nat.le_max_left _ _
      · exact Nat.le_max_left _ _
      · next hl =>
        rw [List.length_append]
        exact Nat.le_trans (Nat.succ_le_of_lt (Nat.lt_of_le_of_lt (List.length_filter_le _ _) hl)) (Nat.le_max_right _ _)
      · exact Nat.le_max_left _ _
      · exact id
      · exact id

/-- A list of actions, each of which keeps the property. -/
theorem Emit.foldl_sat {α : Type} {f : Emit → α → Emit} (hf : ∀ m a, Emit.Sat P m → (f m a).Sat P) (l : List α)
    (h : m.Sat P) : (l.foldl f m).Sat P := by
  induction l generalizing m with
  | nil => exact h
  | cons a l ih => exact ih (hf m a h)

/-! ## The scheduler's actions -/

@[simp] theorem Emit.releasePrepared_sat (hP : Emit.Closed P) (h : m.Sat P) (r : Fin 16) (k : EntryKey) :
    (m.releasePrepared r k).Sat P := by
  simp only [Emit.releasePrepared]
  repeat' split
  all_goals simp (maxDischargeDepth := 40) [hP, h]

@[simp] theorem Emit.releaseEnded_sat (hP : Emit.Closed P) (h : m.Sat P) (env : Env) (r : Fin 16) (k : EntryKey) :
    (m.releaseEnded env r k).Sat P := by
  simp only [Emit.releaseEnded]
  repeat' split
  all_goals simp (maxDischargeDepth := 40) [hP, h]

@[simp] theorem Emit.releaseCancelled_sat (hP : Emit.Closed P) (h : m.Sat P) (env : Env) (r : Fin 16) (k :
    EntryKey) : (m.releaseCancelled env r k).Sat P := by
  simp only [Emit.releaseCancelled]
  repeat' split
  all_goals simp (maxDischargeDepth := 40) [hP, h]

@[simp] theorem Emit.postFire_sat (hP : Emit.Closed P) (h : m.Sat P) (env : Env) (e : Entry) (n : Notice) :
    (m.postFire env e n).Sat P := by
  simp only [Emit.postFire]
  repeat' split
  all_goals simp (maxDischargeDepth := 40) [hP, h]

@[simp] theorem Emit.postOpen_sat (hP : Emit.Closed P) (h : m.Sat P) (b : Bool) (n : Notice) : (m.postOpen b
    n).Sat P := by
  simp only [Emit.postOpen]
  repeat' split
  all_goals simp (maxDischargeDepth := 40) [hP, h]

@[simp] theorem Emit.takePrepare_sat (hP : Emit.Closed P) (h : m.Sat P) (env : Env) (e : Entry) (r : Fin 16) :
    (m.takePrepare env e r).Sat P := by
  simp only [Emit.takePrepare]
  repeat' split
  all_goals simp (maxDischargeDepth := 40) [hP, h]

@[simp] theorem Emit.notify_sat (hP : Emit.Closed P) (h : m.Sat P) (env : Env) (e : Entry) (r : Fin 16) (f :
    Frame) : (m.notify env e r f).Sat P := by
  simp only [Emit.notify]
  simp (maxDischargeDepth := 40) [hP, h]

@[simp] theorem Emit.takeNotify_sat (hP : Emit.Closed P) (h : m.Sat P) (env : Env) (e : Entry) (r : Fin 16) :
    (m.takeNotify env e r).Sat P := by
  simp only [Emit.takeNotify]
  repeat' split
  all_goals simp (maxDischargeDepth := 40) [hP, h]

@[simp] theorem Emit.withdrawPreparation_sat (hP : Emit.Closed P) (h : m.Sat P) (env : Env) (r : Fin 16) (k :
    EntryKey) : (m.withdrawPreparation env r k).Sat P := by
  simp only [Emit.withdrawPreparation]
  repeat' split
  all_goals simp (maxDischargeDepth := 40) [hP, h]

@[simp] theorem Emit.startFire_sat (hP : Emit.Closed P) (h : m.Sat P) (env : Env) (e : Entry) (r : Fin 16) (f :
    Frame) : (m.startFire env e r f).Sat P := by
  simp only [Emit.startFire]
  simp (maxDischargeDepth := 40) [hP, h]

@[simp] theorem Emit.postEnd_sat (hP : Emit.Closed P) (h : m.Sat P) (env : Env) (e : Entry) (r : Fin 16) :
    (m.postEnd env e r).Sat P := by
  simp only [Emit.postEnd]
  repeat' split
  all_goals simp (maxDischargeDepth := 40) [hP, h]

@[simp] theorem Emit.finish_sat (hP : Emit.Closed P) (h : m.Sat P) (env : Env) (e : Entry) : (m.finish env e).Sat
    P := by
  simp only [Emit.finish]
  repeat' split
  all_goals simp (maxDischargeDepth := 40) [hP, h]

@[simp] theorem Emit.markerActs_sat (hP : Emit.Closed P) (h : m.Sat P) (env : Env) (e : Entry) (f : Frame) :
    (m.markerActs env e f).Sat P := by
  simp only [Emit.markerActs]
  simp (maxDischargeDepth := 40) [hP, h]

@[simp] theorem Emit.playPips_sat (hP : Emit.Closed P) (h : m.Sat P) (env : Env) (e : Entry) (l : Fin 2) (n : Nat)
    (k : List Pip) : (m.playPips env e l n k).Sat P := by
  simp only [Emit.playPips]
  repeat' split
  all_goals simp (maxDischargeDepth := 40) [hP, h]

@[simp] theorem Emit.join_sat (hP : Emit.Closed P) (h : m.Sat P) (env : Env) (e : Entry) (f : Frame) : (m.join env
    e f).Sat P := by
  simp only [Emit.join]
  repeat' split
  all_goals simp (maxDischargeDepth := 40) [hP, h]

@[simp] theorem Emit.passBusy_sat (hP : Emit.Closed P) (h : m.Sat P) (env : Env) (e : Entry) (r : Fin 16) (f :
    Frame) : (m.passBusy env e r f).Sat P := by
  simp only [Emit.passBusy]
  repeat' split
  all_goals simp (maxDischargeDepth := 40) [hP, h]

@[simp] theorem Emit.actLate_sat (hP : Emit.Closed P) (h : m.Sat P) (env : Env) (e : Entry) : (m.actLate env
    e).Sat P := by
  simp only [Emit.actLate]
  repeat' split
  all_goals simp (maxDischargeDepth := 40) [hP, h]

@[simp] theorem Emit.miss_sat (hP : Emit.Closed P) (h : m.Sat P) (env : Env) (e : Entry) (f : Frame) : (m.miss env
    e f).Sat P := by
  simp only [Emit.miss]
  repeat' split
  all_goals simp (maxDischargeDepth := 40) [hP, h]

@[simp] theorem Emit.settleLate_sat (hP : Emit.Closed P) (h : m.Sat P) (env : Env) (e : Entry) : (m.settleLate env
    e).Sat P := by
  simp only [Emit.settleLate]
  repeat' split
  all_goals simp (maxDischargeDepth := 40) [hP, h]

@[simp] theorem Emit.keyAction_sat (hP : Emit.Closed P) (h : m.Sat P) (env : Env) (e : Entry) : (m.keyAction env
    e).Sat P := by
  simp only [Emit.keyAction]
  repeat' split
  all_goals simp (maxDischargeDepth := 40) [hP, h]

@[simp] theorem Emit.preActions_sat (hP : Emit.Closed P) (h : m.Sat P) (env : Env) (e : Entry) : (m.preActions env
    e).Sat P := by
  simp only [Emit.preActions]
  repeat' split
  all_goals simp (maxDischargeDepth := 40) [hP, h]

@[simp] theorem Emit.actOn_sat (hP : Emit.Closed P) (h : m.Sat P) (env : Env) (k : EntryKey) : (Emit.actOn env m
    k).Sat P := by
  simp only [Emit.actOn]
  repeat' split
  all_goals simp (maxDischargeDepth := 40) [hP, h]

@[simp] theorem Emit.endOf_sat (hP : Emit.Closed P) (h : m.Sat P) (env : Env) (k : EntryKey) : (Emit.endOf env m
    k).Sat P := by
  simp only [Emit.endOf]
  repeat' split
  all_goals simp (maxDischargeDepth := 40) [hP, h]

@[simp] theorem Emit.scan_sat (hP : Emit.Closed P) (h : m.Sat P) (env : Env) : (m.scan env).Sat P := by
  simp only [Emit.scan]
  repeat' split
  all_goals simp +contextual (maxDischargeDepth := 40) [hP, h, Emit.foldl_sat]

@[simp] theorem Emit.scanIfUsable_sat (hP : Emit.Closed P) (h : m.Sat P) (env : Env) : (m.scanIfUsable env).Sat P
    := by
  simp only [Emit.scanIfUsable]
  repeat' split
  all_goals simp (maxDischargeDepth := 40) [hP, h]

@[simp] theorem Emit.giveBack_sat (hP : Emit.Closed P) (h : m.Sat P) (env : Env) (e : Entry) : (m.giveBack env
    e).Sat P := by
  simp only [Emit.giveBack]
  repeat' split
  all_goals simp (maxDischargeDepth := 40) [hP, h]

@[simp] theorem Emit.cancel_sat (hP : Emit.Closed P) (h : m.Sat P) (env : Env) (c : CancelCause) (k : EntryKey) :
    (Emit.cancel env c m k).Sat P := by
  simp only [Emit.cancel]
  repeat' split
  all_goals simp (maxDischargeDepth := 40) [hP, h]

@[simp] theorem Emit.cancelWhere_sat (hP : Emit.Closed P) (h : m.Sat P) (env : Env) (c : CancelCause) (p : Entry →
    Bool) : (m.cancelWhere env c p).Sat P := by
  simp only [Emit.cancelWhere]
  simp +contextual (maxDischargeDepth := 40) [hP, h, Emit.foldl_sat]

@[simp] theorem Emit.cancelItem_sat (hP : Emit.Closed P) (h : m.Sat P) (env : Env) (c : CancelCause) (i : ItemId)
    : (m.cancelItem env c i).Sat P := by
  simp only [Emit.cancelItem]
  simp (maxDischargeDepth := 40) [hP, h]

@[simp] theorem Emit.cut_sat (hP : Emit.Closed P) (h : m.Sat P) (env : Env) (f : Frame) (e : Entry) : (m.cut env f
    e).Sat P := by
  simp only [Emit.cut]
  repeat' split
  all_goals simp (maxDischargeDepth := 40) [hP, h]

@[simp] theorem Emit.settleDoneEntry_sat (hP : Emit.Closed P) (h : m.Sat P) (env : Env) (f : Frame) (k : EntryKey)
    : (Emit.settleDoneEntry env f m k).Sat P := by
  simp only [Emit.settleDoneEntry]
  repeat' split
  all_goals simp (maxDischargeDepth := 40) [hP, h]

@[simp] theorem Emit.settleDone_sat (hP : Emit.Closed P) (h : m.Sat P) (env : Env) (i : ItemId) (f : Frame) :
    (m.settleDone env i f).Sat P := by
  simp only [Emit.settleDone]
  simp +contextual (maxDischargeDepth := 40) [hP, h, Emit.foldl_sat]

@[simp] theorem Emit.replaceDone_sat (hP : Emit.Closed P) (h : m.Sat P) (env : Env) (i : ItemId) (f : Frame) :
    (m.replaceDone env i f).Sat P := by
  simp only [Emit.replaceDone]
  repeat' split
  all_goals simp (maxDischargeDepth := 40) [hP, h]

@[simp] theorem Emit.refuse_sat (hP : Emit.Closed P) (h : m.Sat P) (env : Env) (i : ItemId) (c : Cue) (w :
    ConflictReason) (p : Option Frame) : (m.refuse env i c w p).Sat P := by
  simp only [Emit.refuse]
  repeat' split
  all_goals simp (maxDischargeDepth := 40) [hP, h]

@[simp] theorem Emit.missFull_sat (hP : Emit.Closed P) (h : m.Sat P) (env : Env) (i : ItemId) (c : Cue) (p :
    Option Frame) : (m.missFull env i c p).Sat P := by
  simp only [Emit.missFull]
  simp (maxDischargeDepth := 40) [hP, h]

@[simp] theorem Emit.armStandby_sat (hP : Emit.Closed P) (h : m.Sat P) (env : Env) (i : ItemId) (c : Cue) :
    (Emit.armStandby env i m c).Sat P := by
  simp only [Emit.armStandby]
  repeat' split
  all_goals simp (maxDischargeDepth := 40) [hP, h]

@[simp] theorem Emit.armTake_sat (hP : Emit.Closed P) (h : m.Sat P) (env : Env) (i : ItemId) (a : Airing) (c :
    Cue) : (Emit.armTake env i a m c).Sat P := by
  simp only [Emit.armTake]
  repeat' split
  all_goals simp (maxDischargeDepth := 40) [hP, h]

@[simp] theorem Emit.clearFormer_sat (hP : Emit.Closed P) (h : m.Sat P) (env : Env) (i : ItemId) (p : Entry → Bool) :
    (m.clearFormer env i p).Sat P :=
  Emit.modSched_sat hP (Emit.cancelWhere_sat hP h env _ _) (Nat.le_refl _) (List.length_filter_le _ _) id

@[simp] theorem Emit.onStandby_sat (hP : Emit.Closed P) (h : m.Sat P) (env : Env) (i : Item) (b : Option ItemId) :
    (m.onStandby env i b).Sat P := by
  simp only [Emit.onStandby]
  repeat' split
  all_goals simp +contextual (maxDischargeDepth := 40) [hP, h, Emit.foldl_sat]

@[simp] theorem Emit.onEnd_sat (hP : Emit.Closed P) (h : m.Sat P) (env : Env) (d : Option (ItemId × Frame)) (b :
    Option ItemId) : (m.onEnd env d b).Sat P := by
  simp only [Emit.onEnd]
  repeat' split
  all_goals simp (maxDischargeDepth := 40) [hP, h]

@[simp] theorem Emit.onTake_sat (hP : Emit.Closed P) (h : m.Sat P) (env : Env) (i : Item) (a : Airing) (d : Option
    (ItemId × Frame)) (b : Option ItemId) : (m.onTake env i a d b).Sat P := by
  simp only [Emit.onTake]
  simp +contextual (maxDischargeDepth := 40) [hP, h, Emit.foldl_sat]

@[simp] theorem Emit.onHold_sat (hP : Emit.Closed P) (h : m.Sat P) (env : Env) (i : ItemId) (f : Frame) :
    (m.onHold env i f).Sat P := by
  have hg (e : Entry) : (if e.item = i then e.hold env f else e).key = e.key := by split <;> simp
  simp only [Emit.onHold]
  simp (maxDischargeDepth := 40) [hP, h, hg]

@[simp] theorem Emit.onResume_sat (hP : Emit.Closed P) (h : m.Sat P) (env : Env) (i : ItemId) (f : Frame) (w :
    Word) : (m.onResume env i f w).Sat P := by
  have hg (d : Word) (e : Entry) : (if e.item = i then e.resume d w else e).key = e.key := by split <;> simp
  simp only [Emit.onResume]
  exact Emit.scanIfUsable_sat hP
    (Emit.modSched_sat hP (Emit.mapArmed_sat hP h (hg _)) (Nat.le_refl _) (Nat.le_refl _) id) env

@[simp] theorem Emit.onEdit_sat (hP : Emit.Closed P) (h : m.Sat P) (env : Env) (l : List ItemId) (b : Bool) :
    (m.onEdit env l b).Sat P := by
  simp only [Emit.onEdit]
  split
  · exact h
  simp +contextual (maxDischargeDepth := 40) [hP, h, Emit.foldl_sat]

@[simp] theorem Emit.itemEndCancel_sat (hP : Emit.Closed P) (h : m.Sat P) (env : Env) : (m.itemEndCancel env).Sat
    P := by
  simp only [Emit.itemEndCancel]
  repeat' split
  all_goals simp (maxDischargeDepth := 40) [hP, h]

@[simp] theorem Emit.shadowExpire_sat (hP : Emit.Closed P) (h : m.Sat P) (env : Env) : (m.shadowExpire env).Sat P
    := by
  simp only [Emit.shadowExpire]
  repeat' split
  all_goals simp (maxDischargeDepth := 40) [hP, h]

@[simp] theorem Emit.pulse_sat (hP : Emit.Closed P) (h : m.Sat P) (env : Env) : (m.pulse env).Sat P := by
  simp only [Emit.pulse]
  simp (maxDischargeDepth := 40) [hP, h]

@[simp] theorem Emit.armMissing_sat (hP : Emit.Closed P) (h : m.Sat P) (env : Env) (r : Replica) (p q : ItemId →
    Airing → Cue → Bool) : (m.armMissing env r p q).Sat P := by
  simp only [Emit.armMissing]
  repeat' split
  all_goals simp +contextual (maxDischargeDepth := 40) [hP, h, Emit.foldl_sat]

@[simp] theorem Emit.rearm_sat (hP : Emit.Closed P) (h : m.Sat P) (env : Env) (r : Replica) : (m.rearm env r).Sat
    P := by
  simp only [Emit.rearm]
  simp (maxDischargeDepth := 40) [hP, h]

@[simp] theorem Emit.takeoverRead_sat (hP : Emit.Closed P) (h : m.Sat P) (env : Env) (r : Replica) :
    (m.takeoverRead env r).Sat P := by
  simp only [Emit.takeoverRead]
  repeat' split
  all_goals simp (maxDischargeDepth := 40) [hP, h]

@[simp] theorem Emit.takeEntry_sat (hP : Emit.Closed P) (h : m.Sat P) (env : Env) (k : EntryKey) : (Emit.takeEntry
    env m k).Sat P := by
  simp only [Emit.takeEntry]
  repeat' split
  all_goals simp (maxDischargeDepth := 40) [hP, h]

@[simp] theorem Emit.takeRecord_sat (hP : Emit.Closed P) (h : m.Sat P) (env : Env) (d : Option Frame) (r :
    ShadowRec) : (Emit.takeRecord env d m r).Sat P := by
  simp only [Emit.takeRecord]
  repeat' split
  all_goals simp (maxDischargeDepth := 40) [hP, h]

@[simp] theorem Emit.takeOver_sat (hP : Emit.Closed P) (h : m.Sat P) (env : Env) (d : Option Frame) : (m.takeOver
    env d).Sat P := by
  have h := Emit.mapArmed_sat (g := fun e => { e with flags := { e.flags with shadow := false } }) hP (env := env) h fun _ => rfl
  simp only [Emit.takeOver]
  exact Emit.modSched_sat hP (Emit.foldl_sat (fun _ _ k => Emit.takeRecord_sat hP k _ _ _) _
    (Emit.foldl_sat (fun _ _ k => Emit.takeEntry_sat hP k _ _) _ h)) (Nat.le_refl _) (Nat.zero_le _) id

end

/-! ## The bounds -/

/-- The bounds on the scheduler's tables and the notice queues. -/
def Emit.within (m : Emit) : Prop := m.sched.within ∧ m.port.within

theorem Emit.within_closed : Emit.Closed Emit.within where
  post _ n h := ⟨h.1, Port.post_within h.2 n⟩
  out _ _ h := h
  sched _ _ h ha hl hn := ⟨⟨Nat.le_trans ha (Nat.max_le.mpr ⟨h.1.1, Nat.le_refl _⟩),
    Nat.le_trans hl (Nat.max_le.mpr ⟨h.1.2.1, Nat.le_refl _⟩), hn h.1.2.2⟩, h.2⟩

/-! ## Notices only join the tails -/

/-- Every notice of `p` stands in `q`, in its place; the requests and enables are those of `p`. -/
def Port.grows (p q : Port) : Prop :=
  p.urgent <+: q.urgent ∧ p.routine <+: q.routine ∧ q.requests = p.requests ∧ q.inHand = p.inHand

theorem Port.grows_refl (p : Port) : p.grows p := ⟨List.prefix_refl _, List.prefix_refl _, rfl, rfl⟩

theorem Port.grows_trans {p q r : Port} (h : p.grows q) (k : q.grows r) : p.grows r :=
  ⟨h.1.trans k.1, h.2.1.trans k.2.1, k.2.2.1.trans h.2.2.1, k.2.2.2.trans h.2.2.2⟩

theorem Port.post_grows (p : Port) (n : Notice) : p.grows (p.post n) := by
  unfold Port.post
  split <;> split <;> exact ⟨by simp, by simp, rfl, rfl⟩

/-- A scheduler action posts notices and reads none. -/
theorem Emit.grows_closed (p : Port) : Emit.Closed fun m => p.grows m.port where
  post m n h := Port.grows_trans h (Port.post_grows m.port n)
  out _ _ h := h
  sched _ _ h _ _ _ := h

end Sys2Proof.Machine
end

