-- ==== Sys2Proof/Laws/Frames.lean ====
section
/-! SUPPORT. Frames: for each shared operation, the parts of the state it may change. -/

namespace Sys2Proof.Machine

/-! ## Working with frames -/

theorem SameBut.refl (ps : List Part) (s : State) : SameBut ps s s := by
  intro p _; cases p <;> first | rfl | exact ⟨rfl, rfl⟩

theorem SameBut.trans {ps : List Part} {s t u : State} (h : SameBut ps s t) (k : SameBut ps t u) : SameBut ps s u := by
  intro p hp
  have h1 := h p hp
  have k1 := k p hp
  cases p <;> first | exact Eq.trans k1 h1 | exact ⟨k1.1.trans h1.1, k1.2.trans h1.2⟩

theorem SameBut.mono {ps qs : List Part} {s t : State} (h : SameBut ps s t) (hs : ∀ p ∈ ps, p ∈ qs) : SameBut qs s t :=
  fun p hp => h p fun hq => hp (hs p hq)

/-- A step with the smaller frame after one with the larger. -/
theorem SameBut.andThen {ps qs : List Part} {s t u : State} (k : SameBut qs t u) (h : SameBut ps s t)
    (hs : ∀ p ∈ qs, p ∈ ps) : SameBut ps s u := h.trans (k.mono hs)

/-- Both branches of a choice. -/
theorem SameBut.ite {ps : List Part} {c : Prop} [Decidable c] {s t u : State} (h : SameBut ps s t) (k : SameBut ps s u) :
    SameBut ps s (if c then t else u) := by
  split
  · exact h
  · exact k

theorem SameBut.all {ps : List Part} {α : Type} {f : State → α → State} (h : ∀ s a, SameBut ps s (f s a)) (l : List α)
    (s : State) : SameBut ps s (l.foldl f s) := by
  induction l generalizing s with
  | nil => exact .refl _ _
  | cons a l ih => exact (h s a).trans (ih _)

/-! ## Updates of one record -/

theorem State.modStore_frame (s : State) (f : Store → Store) : SameBut [.store, .live] s (s.modStore f) := by
  intro p hp; cases p <;> first | rfl | exact ⟨rfl, rfl⟩ | simp at hp

/-- A change of the store that leaves LIVE and the summary copy alone. -/
theorem State.modStore_frame_live (s : State) (f : Store → Store) (hl : (f s.store).live = s.store.live)
    (hs : (f s.store).summary = s.store.summary) : SameBut [.store] s (s.modStore f) := by
  intro p hp; cases p <;> first | rfl | exact ⟨hl, hs⟩ | simp at hp

theorem State.modApply_frame (s : State) (f : ApplyEngine → ApplyEngine) : SameBut [.apply] s (s.modApply f) := by
  intro p hp; cases p <;> first | rfl | exact ⟨rfl, rfl⟩ | simp at hp

theorem State.modTb_frame (s : State) (f : Timebase → Timebase) : SameBut [.tb, .counter] s (s.modTb f) := by
  intro p hp; cases p <;> first | rfl | exact ⟨rfl, rfl⟩ | simp at hp

/-- A change of the timebase that leaves the counter alone. -/
theorem State.modTb_frame_counter (s : State) (f : Timebase → Timebase) (hc : (f s.tb).counter = s.tb.counter) :
    SameBut [.tb] s (s.modTb f) := by
  intro p hp; cases p <;> first | rfl | exact ⟨rfl, rfl⟩ | exact hc | simp at hp

theorem State.modSched_frame (s : State) (f : Scheduler → Scheduler) : SameBut [.sched] s (s.modSched f) := by
  intro p hp; cases p <;> first | rfl | exact ⟨rfl, rfl⟩ | simp at hp

theorem State.modOut_frame (s : State) (f : Output → Output) : SameBut [.out] s (s.modOut f) := by
  intro p hp; cases p <;> first | rfl | exact ⟨rfl, rfl⟩ | simp at hp

theorem State.modTiming_frame (s : State) (f : Timing → Timing) : SameBut [.timing] s (s.modTiming f) := by
  intro p hp; cases p <;> first | rfl | exact ⟨rfl, rfl⟩ | simp at hp

theorem State.modLine_frame (s : State) (f : Line → Line) : SameBut [.line] s (s.modLine f) := by
  intro p hp; cases p <;> first | rfl | exact ⟨rfl, rfl⟩ | simp at hp

theorem State.modRoster_frame (s : State) (f : Roster → Roster) : SameBut [.roster] s (s.modRoster f) := by
  intro p hp; cases p <;> first | rfl | exact ⟨rfl, rfl⟩ | simp at hp

theorem State.modSync_frame (s : State) (f : Sync → Sync) : SameBut [.sync] s (s.modSync f) := by
  intro p hp; cases p <;> first | rfl | exact ⟨rfl, rfl⟩ | simp at hp

theorem State.modPair_frame (s : State) (f : Pair → Pair) : SameBut [.pair] s (s.modPair f) := by
  intro p hp; cases p <;> first | rfl | exact ⟨rfl, rfl⟩ | simp at hp

theorem State.modPort_frame (s : State) (f : Port → Port) : SameBut [.port] s (s.modPort f) := by
  intro p hp; cases p <;> first | rfl | exact ⟨rfl, rfl⟩ | simp at hp

theorem State.elapse_frame (s : State) (d : Nat) : SameBut [.clock] s (s.elapse d) := by
  intro p hp; cases p <;> first | rfl | exact ⟨rfl, rfl⟩ | simp at hp

theorem State.emit_frame (s : State) (f : Env → Emit → Emit) : SameBut [.sched, .out, .port] s (s.emit f) := by
  intro p hp; cases p <;> first | rfl | exact ⟨rfl, rfl⟩ | simp at hp

end Sys2Proof.Machine
end

