-- ==== Sys2Proof/Laws/Same.lean ====
section
/-! SUPPORT. The frame of every operation over the station, as a rewriting rule: an operation drops out of `SameBut` where the
parts it may change are listed. -/

namespace Sys2Proof.Machine

variable {ps : List Part} {s t : State}

theorem SameBut.step {qs : List Part} {u : State} (h : SameBut qs t u) (hs : ∀ p ∈ qs, p ∈ ps) :
    SameBut ps s u ↔ SameBut ps s t := by
  constructor
  · intro k p hp
    have h1 := h p fun hq => hp (hs p hq)
    have k1 := k p hp
    cases p <;> first
      | exact Eq.trans (Eq.symm h1) k1
      | exact ⟨h1.1.symm.trans k1.1, h1.2.symm.trans k1.2⟩
  · exact fun k => h.andThen k hs

@[simp] theorem SameBut.self : SameBut ps s s := .refl _ _

@[simp] theorem SameBut.choice {c : Prop} [Decidable c] {u : State} :
    SameBut ps s (if c then t else u) ↔ (c → SameBut ps s t) ∧ (¬c → SameBut ps s u) := by
  split <;> simp [*]

/-! ## Updates -/

@[simp] theorem State.modStore_same (f : Store → Store) (hs : ∀ p ∈ [Part.store, Part.live], p ∈ ps) :
    SameBut ps s (t.modStore f) ↔ SameBut ps s t := (State.modStore_frame t f).step hs

@[simp] theorem State.modApply_same (f : ApplyEngine → ApplyEngine) (hs : ∀ p ∈ [Part.apply], p ∈ ps) :
    SameBut ps s (t.modApply f) ↔ SameBut ps s t := (State.modApply_frame t f).step hs

@[simp] theorem State.modTb_same (f : Timebase → Timebase) (hs : ∀ p ∈ [Part.tb, Part.counter], p ∈ ps) :
    SameBut ps s (t.modTb f) ↔ SameBut ps s t := (State.modTb_frame t f).step hs

@[simp] theorem State.modSched_same (f : Scheduler → Scheduler) (hs : ∀ p ∈ [Part.sched], p ∈ ps) :
    SameBut ps s (t.modSched f) ↔ SameBut ps s t := (State.modSched_frame t f).step hs

@[simp] theorem State.modOut_same (f : Output → Output) (hs : ∀ p ∈ [Part.out], p ∈ ps) :
    SameBut ps s (t.modOut f) ↔ SameBut ps s t := (State.modOut_frame t f).step hs

@[simp] theorem State.modTiming_same (f : Timing → Timing) (hs : ∀ p ∈ [Part.timing], p ∈ ps) :
    SameBut ps s (t.modTiming f) ↔ SameBut ps s t := (State.modTiming_frame t f).step hs

@[simp] theorem State.modLine_same (f : Line → Line) (hs : ∀ p ∈ [Part.line], p ∈ ps) :
    SameBut ps s (t.modLine f) ↔ SameBut ps s t := (State.modLine_frame t f).step hs

@[simp] theorem State.modRoster_same (f : Roster → Roster) (hs : ∀ p ∈ [Part.roster], p ∈ ps) :
    SameBut ps s (t.modRoster f) ↔ SameBut ps s t := (State.modRoster_frame t f).step hs

@[simp] theorem State.modSync_same (f : Sync → Sync) (hs : ∀ p ∈ [Part.sync], p ∈ ps) :
    SameBut ps s (t.modSync f) ↔ SameBut ps s t := (State.modSync_frame t f).step hs

@[simp] theorem State.modPair_same (f : Pair → Pair) (hs : ∀ p ∈ [Part.pair], p ∈ ps) :
    SameBut ps s (t.modPair f) ↔ SameBut ps s t := (State.modPair_frame t f).step hs

@[simp] theorem State.modPort_same (f : Port → Port) (hs : ∀ p ∈ [Part.port], p ∈ ps) :
    SameBut ps s (t.modPort f) ↔ SameBut ps s t := (State.modPort_frame t f).step hs

@[simp] theorem State.modStore_same_live {f : Store → Store} (hs : Part.store ∈ ps)
    (hl : (f t.store).live = t.store.live) (hm : (f t.store).summary = t.store.summary) :
    SameBut ps s (t.modStore f) ↔ SameBut ps s t := (State.modStore_frame_live t f hl hm).step (by simpa using hs)

@[simp] theorem State.modTb_same_counter {f : Timebase → Timebase} (hs : Part.tb ∈ ps)
    (hc : (f t.tb).counter = t.tb.counter) :
    SameBut ps s (t.modTb f) ↔ SameBut ps s t := (State.modTb_frame_counter t f hc).step (by simpa using hs)

/-! ## The arbiter leaves LIVE alone -/

@[simp] theorem Store.start_live (st : Store) (op : StoreOp) : (st.start op).live = st.live := rfl
@[simp] theorem Store.start_summary (st : Store) (op : StoreOp) : (st.start op).summary = st.summary := rfl

@[simp] theorem Store.setWaiting_live (st : Store) (c : Client) (w : Option StoreOp) : (st.setWaiting c w).live = st.live := by
  cases c <;> rfl
@[simp] theorem Store.setWaiting_summary (st : Store) (c : Client) (w : Option StoreOp) :
    (st.setWaiting c w).summary = st.summary := by cases c <;> rfl

@[simp] theorem Store.grantNext_live (st : Store) : st.grantNext.live = st.live := by
  unfold Store.grantNext; split <;> rfl
@[simp] theorem Store.grantNext_summary (st : Store) : st.grantNext.summary = st.summary := by
  unfold Store.grantNext; split <;> rfl

@[simp] theorem Store.request_live (st : Store) (op : StoreOp) : (st.request op).live = st.live := by
  unfold Store.request; split <;> simp
@[simp] theorem Store.request_summary (st : Store) (op : StoreOp) : (st.request op).summary = st.summary := by
  unfold Store.request; split <;> simp

@[simp] theorem Store.release_live (st : Store) : st.release.live = st.live := by simp [Store.release]
@[simp] theorem Store.release_summary (st : Store) : st.release.summary = st.summary := by simp [Store.release]

@[simp] theorem Store.abandon_live (st : Store) (c : Client) : (st.abandon c).live = st.live := by
  simp only [Store.abandon]; repeat' split
  all_goals simp
@[simp] theorem Store.abandon_summary (st : Store) (c : Client) : (st.abandon c).summary = st.summary := by
  simp only [Store.abandon]; repeat' split
  all_goals simp

@[simp] theorem Store.emptyShadow_live (st : Store) : st.emptyShadow.live = st.live := rfl
@[simp] theorem Store.emptyShadow_summary (st : Store) : st.emptyShadow.summary = st.summary := rfl

@[simp] theorem Store.abandonFreeze_live (st : Store) : st.abandonFreeze.live = st.live := rfl
@[simp] theorem Store.abandonFreeze_summary (st : Store) : st.abandonFreeze.summary = st.summary := rfl

@[simp] theorem State.elapse_same (d : Nat) (hs : ∀ p ∈ [Part.clock], p ∈ ps) :
    SameBut ps s (t.elapse d) ↔ SameBut ps s t := (State.elapse_frame t d).step hs

@[simp] theorem State.emit_same (f : Env → Emit → Emit) (hs : ∀ p ∈ [Part.sched, Part.out, Part.port], p ∈ ps) :
    SameBut ps s (t.emit f) ↔ SameBut ps s t := (State.emit_frame t f).step hs

/-! ## Ops -/

@[simp] theorem State.post_same (n : Notice) (hs : ∀ p ∈ [Part.port], p ∈ ps) :
    SameBut ps s (t.post n) ↔ SameBut ps s t := by
  refine SameBut.step (qs := _) ?_ hs
  simp only [State.post]
  simp -implicitDefEqProofs

@[simp] theorem State.postAll_same (l : List Notice) (hs : ∀ p ∈ [Part.port], p ∈ ps) :
    SameBut ps s (t.postAll l) ↔ SameBut ps s t := by
  refine SameBut.step (qs := _) (SameBut.all ?_ _ _) hs
  intro s n; simp

@[simp] theorem State.request_same (op : StoreOp) (hs : ∀ p ∈ [Part.store], p ∈ ps) :
    SameBut ps s (t.request op) ↔ SameBut ps s t := by
  refine SameBut.step (qs := _) ?_ hs
  simp only [State.request]
  simp -implicitDefEqProofs

@[simp] theorem State.release_same (hs : ∀ p ∈ [Part.store], p ∈ ps) :
    SameBut ps s (t.release) ↔ SameBut ps s t := by
  refine SameBut.step (qs := _) ?_ hs
  simp only [State.release]
  simp -implicitDefEqProofs

@[simp] theorem State.arbitrate_same (hs : ∀ p ∈ [Part.line], p ∈ ps) :
    SameBut ps s (t.arbitrate) ↔ SameBut ps s t := by
  refine SameBut.step (qs := _) ?_ hs
  simp only [State.arbitrate]
  simp -implicitDefEqProofs

@[simp] theorem State.enqueue_same (m : OutMsg) (hs : ∀ p ∈ [Part.line], p ∈ ps) :
    SameBut ps s (t.enqueue m) ↔ SameBut ps s t := by
  refine SameBut.step (qs := _) ?_ hs
  simp only [State.enqueue]
  simp -implicitDefEqProofs

@[simp] theorem State.withdraw_same (p : OutMsg → Bool) (hs : ∀ p ∈ [Part.line], p ∈ ps) :
    SameBut ps s (t.withdraw p) ↔ SameBut ps s t := by
  refine SameBut.step (qs := _) ?_ hs
  simp only [State.withdraw]
  simp -implicitDefEqProofs

@[simp] theorem State.sendFailed_same (m : OutMsg) (r : FailReason) (hs : ∀ p ∈ [Part.port], p ∈ ps) :
    SameBut ps s (t.sendFailed m r) ↔ SameBut ps s t := by
  refine SameBut.step (qs := _) ?_ hs
  simp only [State.sendFailed]
  repeat' split
  all_goals simp -implicitDefEqProofs

@[simp] theorem State.sendFailedAll_same (l : List OutMsg) (r : FailReason) (hs : ∀ p ∈ [Part.port], p ∈ ps) :
    SameBut ps s (t.sendFailedAll l r) ↔ SameBut ps s t := by
  refine SameBut.step (qs := _) (SameBut.all ?_ _ _) hs
  intro s n; simp

/-! ## Presenter -/

@[simp] theorem State.takeLights_same (hs : ∀ p ∈ [Part.out], p ∈ ps) :
    SameBut ps s (t.takeLights) ↔ SameBut ps s t := by
  refine SameBut.step (qs := _) ?_ hs
  simp only [State.takeLights]
  simp -implicitDefEqProofs

@[simp] theorem State.followLights_same (hs : ∀ p ∈ [Part.out], p ∈ ps) :
    SameBut ps s (t.followLights) ↔ SameBut ps s t := by
  refine SameBut.step (qs := _) ?_ hs
  simp only [State.followLights]
  repeat' split
  all_goals simp -implicitDefEqProofs

@[simp] theorem State.pipsStart_same (hs : ∀ p ∈ [Part.out], p ∈ ps) :
    SameBut ps s (t.pipsStart) ↔ SameBut ps s t := by
  refine SameBut.step (qs := _) ?_ hs
  simp only [State.pipsStart]
  repeat' split
  all_goals simp -implicitDefEqProofs

@[simp] theorem State.pipsStop_same (hs : ∀ p ∈ [Part.out], p ∈ ps) :
    SameBut ps s (t.pipsStop) ↔ SameBut ps s t := by
  refine SameBut.step (qs := _) ?_ hs
  simp only [State.pipsStop]
  repeat' split
  all_goals simp -implicitDefEqProofs

@[simp] theorem State.press_same (i : Fin 4) (hs : ∀ p ∈ [Part.line, Part.port], p ∈ ps) :
    SameBut ps s (t.press i) ↔ SameBut ps s t := by
  refine SameBut.step (qs := _) ?_ hs
  simp only [State.press]
  repeat' split
  all_goals simp -implicitDefEqProofs

@[simp] theorem State.sample_same (p : Vector Bool 4) (hs : ∀ p ∈ [Part.out, Part.line, Part.port], p ∈ ps) :
    SameBut ps s (t.sample p) ↔ SameBut ps s t := by
  refine SameBut.step (qs := _) ?_ hs
  simp only [State.sample]
  repeat' split
  all_goals simp -implicitDefEqProofs

@[simp] theorem State.outputPulse_same (p : Vector Bool 4) (hs : ∀ p ∈ [Part.out, Part.line, Part.port], p ∈ ps) :
    SameBut ps s (t.outputPulse p) ↔ SameBut ps s t := by
  refine SameBut.step (qs := _) ?_ hs
  simp only [State.outputPulse]
  simp -implicitDefEqProofs

/-! ## Timing -/

@[simp] theorem State.reclaim_same (hs : ∀ p ∈ [Part.timing], p ∈ ps) :
    SameBut ps s (t.reclaim) ↔ SameBut ps s t := by
  refine SameBut.step (qs := _) ?_ hs
  simp only [State.reclaim]
  simp -implicitDefEqProofs

@[simp] theorem State.postTiming_same (i : Item) (b : Bool) (hs : ∀ p ∈ [Part.port], p ∈ ps) :
    SameBut ps s (t.postTiming i b) ↔ SameBut ps s t := by
  refine SameBut.step (qs := _) ?_ hs
  simp only [State.postTiming]
  repeat' split
  all_goals simp -implicitDefEqProofs

@[simp] theorem State.computeBacktime_same (b : Bool) (hs : ∀ p ∈ [Part.timing, Part.port], p ∈ ps) :
    SameBut ps s (t.computeBacktime b) ↔ SameBut ps s t := by
  refine SameBut.step (qs := _) ?_ hs
  simp only [State.computeBacktime]
  repeat' split
  all_goals simp -implicitDefEqProofs

@[simp] theorem State.wantProjection_same (hs : ∀ p ∈ [Part.timing, Part.store], p ∈ ps) :
    SameBut ps s (t.wantProjection) ↔ SameBut ps s t := by
  refine SameBut.step (qs := _) ?_ hs
  simp only [State.wantProjection]
  repeat' split
  all_goals simp -implicitDefEqProofs

@[simp] theorem State.timingPulse_same (hs : ∀ p ∈ [Part.timing, Part.port], p ∈ ps) :
    SameBut ps s (t.timingPulse) ↔ SameBut ps s t := by
  refine SameBut.step (qs := _) ?_ hs
  simp only [State.timingPulse]
  simp -implicitDefEqProofs

@[simp] theorem State.timingAdopted_same (hs : ∀ p ∈ [Part.timing, Part.store], p ∈ ps) :
    SameBut ps s (t.timingAdopted) ↔ SameBut ps s t := by
  refine SameBut.step (qs := _) ?_ hs
  simp only [State.timingAdopted]
  simp -implicitDefEqProofs

@[simp] theorem State.projectionDone_same (hs : ∀ p ∈ [Part.timing, Part.port], p ∈ ps) :
    SameBut ps s (t.projectionDone) ↔ SameBut ps s t := by
  refine SameBut.step (qs := _) ?_ hs
  simp only [State.projectionDone]
  simp -implicitDefEqProofs

/-! ## Pair -/

@[simp] theorem State.wantReads_same (hs : ∀ p ∈ [Part.store], p ∈ ps) :
    SameBut ps s (t.wantReads) ↔ SameBut ps s t := by
  refine SameBut.step (qs := _) ?_ hs
  simp only [State.wantReads]
  repeat' split
  all_goals simp -implicitDefEqProofs

@[simp] theorem State.postRole_same (r : Role) (c : RoleCause) (hs : ∀ p ∈ [Part.port], p ∈ ps) :
    SameBut ps s (t.postRole r c) ↔ SameBut ps s t := by
  refine SameBut.step (qs := _) ?_ hs
  simp only [State.postRole]
  repeat' split
  all_goals simp -implicitDefEqProofs

@[simp] theorem State.becomeActive_same (c : RoleCause) (hs : ∀ p ∈ [Part.store, Part.sched, Part.out, Part.pair,
    Part.port], p ∈ ps) :
    SameBut ps s (t.becomeActive c) ↔ SameBut ps s t := by
  refine SameBut.step (qs := _) ?_ hs
  simp only [State.becomeActive]
  simp -implicitDefEqProofs

@[simp] theorem State.becomeStandby_same (c : RoleCause) (hs : ∀ p ∈ [Part.port, Part.pair, Part.sched], p ∈ ps) :
    SameBut ps s (t.becomeStandby c) ↔ SameBut ps s t := by
  refine SameBut.step (qs := _) ?_ hs
  simp only [State.becomeStandby]
  simp -implicitDefEqProofs

@[simp] theorem State.block_same (c : RoleCause) (hs : ∀ p ∈ [Part.pair, Part.port], p ∈ ps) :
    SameBut ps s (t.block c) ↔ SameBut ps s t := by
  refine SameBut.step (qs := _) ?_ hs
  simp only [State.block]
  repeat' split
  all_goals simp -implicitDefEqProofs

@[simp] theorem State.takeoverTest_same (hs : ∀ p ∈ [Part.store, Part.sched, Part.out, Part.pair, Part.port], p ∈
    ps) :
    SameBut ps s (t.takeoverTest) ↔ SameBut ps s t := by
  refine SameBut.step (qs := _) ?_ hs
  simp only [State.takeoverTest]
  repeat' split
  all_goals simp -implicitDefEqProofs

@[simp] theorem State.fitnessChanged_same (hs : ∀ p ∈ [Part.store, Part.sched, Part.out, Part.pair, Part.port], p
    ∈ ps) :
    SameBut ps s (t.fitnessChanged) ↔ SameBut ps s t := by
  refine SameBut.step (qs := _) ?_ hs
  simp only [State.fitnessChanged]
  simp -implicitDefEqProofs

@[simp] theorem State.usabilityChanged_same (hs : ∀ p ∈ [Part.store, Part.sched, Part.out, Part.pair, Part.port],
    p ∈ ps) :
    SameBut ps s (t.usabilityChanged) ↔ SameBut ps s t := by
  refine SameBut.step (qs := _) ?_ hs
  simp only [State.usabilityChanged]
  repeat' split
  all_goals simp -implicitDefEqProofs

@[simp] theorem State.resolveDoubled_same (c : Presence) (hs : ∀ p ∈ [Part.port, Part.pair, Part.sched], p ∈ ps) :
    SameBut ps s (t.resolveDoubled c) ↔ SameBut ps s t := by
  refine SameBut.step (qs := _) ?_ hs
  simp only [State.resolveDoubled]
  repeat' split
  all_goals simp -implicitDefEqProofs

@[simp] theorem State.partnerHeard_same (c : Presence) (hs : ∀ p ∈ [Part.store, Part.sched, Part.out, Part.pair,
    Part.port], p ∈ ps) :
    SameBut ps s (t.partnerHeard c) ↔ SameBut ps s t := by
  refine SameBut.step (qs := _) ?_ hs
  simp only [State.partnerHeard]
  repeat' split
  all_goals simp -implicitDefEqProofs

@[simp] theorem State.partnerLost_same (hs : ∀ p ∈ [Part.store, Part.sched, Part.out, Part.pair, Part.port], p ∈ ps) :
    SameBut ps s (t.partnerLost) ↔ SameBut ps s t := by
  refine SameBut.step (qs := _) ?_ hs
  simp only [State.partnerLost]
  simp -implicitDefEqProofs

@[simp] theorem State.yieldHeard_same (n : StationNo) (hs : ∀ p ∈ [Part.store, Part.sched, Part.out, Part.pair,
    Part.port], p ∈ ps) :
    SameBut ps s (t.yieldHeard n) ↔ SameBut ps s t := by
  refine SameBut.step (qs := _) ?_ hs
  simp only [State.yieldHeard]
  repeat' split
  all_goals simp -implicitDefEqProofs

@[simp] theorem State.yieldSent_same (hs : ∀ p ∈ [Part.pair], p ∈ ps) :
    SameBut ps s (t.yieldSent) ↔ SameBut ps s t := by
  refine SameBut.step (qs := _) ?_ hs
  simp only [State.yieldSent]
  repeat' split
  all_goals simp -implicitDefEqProofs

@[simp] theorem State.yieldLost_same (hs : ∀ p ∈ [Part.pair], p ∈ ps) :
    SameBut ps s (t.yieldLost) ↔ SameBut ps s t := by
  refine SameBut.step (qs := _) ?_ hs
  simp only [State.yieldLost]
  simp -implicitDefEqProofs

@[simp] theorem State.yieldExpire_same (hs : ∀ p ∈ [Part.pair, Part.port], p ∈ ps) :
    SameBut ps s (t.yieldExpire) ↔ SameBut ps s t := by
  refine SameBut.step (qs := _) ?_ hs
  simp only [State.yieldExpire]
  repeat' split
  all_goals simp -implicitDefEqProofs

@[simp] theorem State.pairPulse_same (hs : ∀ p ∈ [Part.pair, Part.port], p ∈ ps) :
    SameBut ps s (t.pairPulse) ↔ SameBut ps s t := by
  refine SameBut.step (qs := _) ?_ hs
  simp only [State.pairPulse]
  repeat' split
  all_goals simp -implicitDefEqProofs

@[simp] theorem State.pairMuted_same (hs : ∀ p ∈ [Part.store, Part.sched, Part.out, Part.pair, Part.port], p ∈ ps) :
    SameBut ps s (t.pairMuted) ↔ SameBut ps s t := by
  refine SameBut.step (qs := _) ?_ hs
  simp only [State.pairMuted]
  repeat' split
  all_goals simp -implicitDefEqProofs

/-! ## Sync -/

@[simp] theorem State.popQueue_same (hs : ∀ p ∈ [Part.apply, Part.line], p ∈ ps) :
    SameBut ps s (t.popQueue) ↔ SameBut ps s t := by
  refine SameBut.step (qs := _) ?_ hs
  simp only [State.popQueue]
  simp -implicitDefEqProofs

@[simp] theorem State.discardOrdered_same (hs : ∀ p ∈ [Part.apply, Part.line, Part.store], p ∈ ps) :
    SameBut ps s (t.discardOrdered) ↔ SameBut ps s t := by
  refine SameBut.step (qs := _) ?_ hs
  simp only [State.discardOrdered]
  repeat' split
  all_goals simp -implicitDefEqProofs

@[simp] theorem State.startRound_same (hs : ∀ p ∈ [Part.sync], p ∈ ps) :
    SameBut ps s (t.startRound) ↔ SameBut ps s t := by
  refine SameBut.step (qs := _) ?_ hs
  simp only [State.startRound]
  repeat' split
  all_goals simp -implicitDefEqProofs

@[simp] theorem State.streamEnd_same (hs : ∀ p ∈ [Part.sync], p ∈ ps) :
    SameBut ps s (t.streamEnd) ↔ SameBut ps s t := by
  refine SameBut.step (qs := _) ?_ hs
  simp only [State.streamEnd]
  repeat' split
  all_goals simp -implicitDefEqProofs

@[simp] theorem State.kickFor_same (n : Nat) (hs : ∀ p ∈ [Part.apply, Part.line, Part.sync, Part.store], p ∈ ps) :
    SameBut ps s (t.kickFor n) ↔ SameBut ps s t := by
  refine SameBut.step (qs := _) ?_ hs
  induction n generalizing t with
  | zero => simp [State.kickFor]
  | succ n ih =>
    simp only [State.kickFor]
    repeat' split
    all_goals first
      | exact ih.andThen (by simp) (by simp)
      | simp

@[simp] theorem State.kick_same (hs : ∀ p ∈ [Part.apply, Part.line, Part.sync, Part.store], p ∈ ps) :
    SameBut ps s (t.kick) ↔ SameBut ps s t := by
  refine SameBut.step (qs := _) ?_ hs
  simp only [State.kick]
  simp -implicitDefEqProofs

@[simp] theorem State.abandonResponder_same (hs : ∀ p ∈ [Part.apply, Part.line, Part.sync, Part.store], p ∈ ps) :
    SameBut ps s (t.abandonResponder) ↔ SameBut ps s t := by
  refine SameBut.step (qs := _) ?_ hs
  simp only [State.abandonResponder]
  repeat' split
  all_goals simp -implicitDefEqProofs

@[simp] theorem State.setStep_same (n : StepState) (c : StepCause) (hs : ∀ p ∈ [Part.sync, Part.port], p ∈ ps) :
    SameBut ps s (t.setStep n c) ↔ SameBut ps s t := by
  refine SameBut.step (qs := _) ?_ hs
  simp only [State.setStep]
  simp -implicitDefEqProofs

@[simp] theorem State.leaveInStep_same (c : StepCause) (hs : ∀ p ∈ [Part.store, Part.apply, Part.sched, Part.out,
    Part.line, Part.sync, Part.pair, Part.port], p ∈ ps) :
    SameBut ps s (t.leaveInStep c) ↔ SameBut ps s t := by
  refine SameBut.step (qs := _) ?_ hs
  simp only [State.leaveInStep]
  repeat' split
  all_goals simp -implicitDefEqProofs

@[simp] theorem State.enterInStep_same (c : StepCause) (hs : ∀ p ∈ [Part.store, Part.apply, Part.sched, Part.out,
    Part.line, Part.sync, Part.pair, Part.port], p ∈ ps) :
    SameBut ps s (t.enterInStep c) ↔ SameBut ps s t := by
  refine SameBut.step (qs := _) ?_ hs
  simp only [State.enterInStep]
  simp -implicitDefEqProofs

@[simp] theorem State.abandonCatchUp_same (r : AbandonReason) (hs : ∀ p ∈ [Part.store, Part.apply, Part.sched,
    Part.out, Part.line, Part.sync, Part.pair, Part.port], p ∈ ps) :
    SameBut ps s (t.abandonCatchUp r) ↔ SameBut ps s t := by
  refine SameBut.step (qs := _) ?_ hs
  simp only [State.abandonCatchUp]
  simp -implicitDefEqProofs

@[simp] theorem State.takeOrdered_same (n : StationNo) (m : Ordered) (hs : ∀ p ∈ [Part.store, Part.apply, Part.sched,
    Part.out, Part.line, Part.sync, Part.pair, Part.port], p ∈ ps) :
    SameBut ps s (t.takeOrdered n m) ↔ SameBut ps s t := by
  refine SameBut.step (qs := _) ?_ hs
  simp only [State.takeOrdered]
  repeat' split
  all_goals simp -implicitDefEqProofs

@[simp] theorem State.possibleLoss_same (hs : ∀ p ∈ [Part.store, Part.apply, Part.sched, Part.out, Part.line,
    Part.sync, Part.pair, Part.port], p ∈ ps) :
    SameBut ps s (t.possibleLoss) ↔ SameBut ps s t := by
  refine SameBut.step (qs := _) ?_ hs
  simp only [State.possibleLoss]
  repeat' split
  all_goals simp -implicitDefEqProofs

@[simp] theorem State.partLost_same (n : StationNo) (hs : ∀ p ∈ [Part.store, Part.apply, Part.sched, Part.out,
    Part.line, Part.sync, Part.pair, Part.port], p ∈ ps) :
    SameBut ps s (t.partLost n) ↔ SameBut ps s t := by
  refine SameBut.step (qs := _) ?_ hs
  simp only [State.partLost]
  repeat' split
  all_goals simp -implicitDefEqProofs

@[simp] theorem State.syncHeard_same (c : Presence) (hs : ∀ p ∈ [Part.store, Part.apply, Part.sched, Part.out,
    Part.line, Part.sync, Part.pair, Part.port], p ∈ ps) :
    SameBut ps s (t.syncHeard c) ↔ SameBut ps s t := by
  refine SameBut.step (qs := _) ?_ hs
  simp only [State.syncHeard]
  repeat' split
  all_goals simp -implicitDefEqProofs

@[simp] theorem State.found_same (hs : ∀ p ∈ [Part.store, Part.apply, Part.sched, Part.out, Part.line, Part.sync,
    Part.pair, Part.port], p ∈ ps) :
    SameBut ps s (t.found) ↔ SameBut ps s t := by
  refine SameBut.step (qs := _) ?_ hs
  simp only [State.found]
  repeat' split
  all_goals simp -implicitDefEqProofs

@[simp] theorem State.askFirst_same (hs : ∀ p ∈ [Part.store, Part.apply, Part.sched, Part.out, Part.line,
    Part.sync, Part.pair, Part.port], p ∈ ps) :
    SameBut ps s (t.askFirst) ↔ SameBut ps s t := by
  refine SameBut.step (qs := _) ?_ hs
  simp only [State.askFirst]
  repeat' split
  all_goals simp -implicitDefEqProofs

@[simp] theorem State.askAgain_same (hs : ∀ p ∈ [Part.line, Part.sync], p ∈ ps) :
    SameBut ps s (t.askAgain) ↔ SameBut ps s t := by
  refine SameBut.step (qs := _) ?_ hs
  simp only [State.askAgain]
  repeat' split
  all_goals simp -implicitDefEqProofs

@[simp] theorem State.askRetryExpire_same (hs : ∀ p ∈ [Part.store, Part.apply, Part.sched, Part.out, Part.line,
    Part.sync, Part.pair, Part.port], p ∈ ps) :
    SameBut ps s (t.askRetryExpire) ↔ SameBut ps s t := by
  refine SameBut.step (qs := _) ?_ hs
  simp only [State.askRetryExpire]
  repeat' split
  all_goals simp -implicitDefEqProofs

@[simp] theorem State.askSent_same (hs : ∀ p ∈ [Part.sync], p ∈ ps) :
    SameBut ps s (t.askSent) ↔ SameBut ps s t := by
  refine SameBut.step (qs := _) ?_ hs
  simp only [State.askSent]
  simp -implicitDefEqProofs

@[simp] theorem State.askLost_same (hs : ∀ p ∈ [Part.store, Part.apply, Part.sched, Part.out, Part.line,
    Part.sync, Part.pair, Part.port], p ∈ ps) :
    SameBut ps s (t.askLost) ↔ SameBut ps s t := by
  refine SameBut.step (qs := _) ?_ hs
  simp only [State.askLost]
  repeat' split
  all_goals simp -implicitDefEqProofs

@[simp] theorem State.askHeard_same (n : StationNo) (hs : ∀ p ∈ [Part.sync], p ∈ ps) :
    SameBut ps s (t.askHeard n) ↔ SameBut ps s t := by
  refine SameBut.step (qs := _) ?_ hs
  simp only [State.askHeard]
  repeat' split
  all_goals simp -implicitDefEqProofs

@[simp] theorem State.responseExpire_same (hs : ∀ p ∈ [Part.line, Part.sync], p ∈ ps) :
    SameBut ps s (t.responseExpire) ↔ SameBut ps s t := by
  refine SameBut.step (qs := _) ?_ hs
  simp only [State.responseExpire]
  repeat' split
  all_goals simp -implicitDefEqProofs

@[simp] theorem State.openingSent_same (w : Bool) (hs : ∀ p ∈ [Part.apply, Part.line, Part.sync, Part.store], p ∈ ps) :
    SameBut ps s (t.openingSent w) ↔ SameBut ps s t := by
  refine SameBut.step (qs := _) ?_ hs
  simp only [State.openingSent]
  repeat' split
  all_goals simp -implicitDefEqProofs

@[simp] theorem State.readPart_same (hs : ∀ p ∈ [Part.store], p ∈ ps) :
    SameBut ps s (t.readPart) ↔ SameBut ps s t := by
  refine SameBut.step (qs := _) ?_ hs
  simp only [State.readPart]
  repeat' split
  all_goals simp -implicitDefEqProofs

@[simp] theorem State.partSent_same (k : Nat) (hs : ∀ p ∈ [Part.sync, Part.store], p ∈ ps) :
    SameBut ps s (t.partSent k) ↔ SameBut ps s t := by
  refine SameBut.step (qs := _) ?_ hs
  simp only [State.partSent]
  repeat' split
  all_goals simp -implicitDefEqProofs

@[simp] theorem State.partGivenUp_same (k : Nat) (hs : ∀ p ∈ [Part.apply, Part.line, Part.sync, Part.store], p ∈ ps) :
    SameBut ps s (t.partGivenUp k) ↔ SameBut ps s t := by
  refine SameBut.step (qs := _) ?_ hs
  simp only [State.partGivenUp]
  repeat' split
  all_goals simp -implicitDefEqProofs

@[simp] theorem State.wantWrite_same (hs : ∀ p ∈ [Part.store], p ∈ ps) :
    SameBut ps s (t.wantWrite) ↔ SameBut ps s t := by
  refine SameBut.step (qs := _) ?_ hs
  simp only [State.wantWrite]
  repeat' split
  all_goals simp -implicitDefEqProofs

@[simp] theorem State.takeOpening_same (n : StationNo) (hs : ∀ p ∈ [Part.store, Part.apply, Part.sched, Part.out,
    Part.line, Part.sync, Part.pair, Part.port], p ∈ ps) :
    SameBut ps s (t.takeOpening n) ↔ SameBut ps s t := by
  refine SameBut.step (qs := _) ?_ hs
  simp only [State.takeOpening]
  repeat' split
  all_goals simp -implicitDefEqProofs

@[simp] theorem State.cancelRound_same (hs : ∀ p ∈ [Part.sync, Part.line], p ∈ ps) :
    SameBut ps s (t.cancelRound) ↔ SameBut ps s t := by
  refine SameBut.step (qs := _) ?_ hs
  simp only [State.cancelRound]
  repeat' split
  all_goals simp -implicitDefEqProofs

@[simp] theorem State.openingHeard_same (n : StationNo) (hs : ∀ p ∈ [Part.store, Part.apply, Part.sched, Part.out,
    Part.line, Part.sync, Part.pair, Part.port], p ∈ ps) :
    SameBut ps s (t.openingHeard n) ↔ SameBut ps s t := by
  refine SameBut.step (qs := _) ?_ hs
  simp only [State.openingHeard]
  repeat' split
  all_goals simp -implicitDefEqProofs

@[simp] theorem State.partHeard_same (n : StationNo) (k : Nat) (c : List Byte) (hs : ∀ p ∈ [Part.store,
    Part.apply, Part.sched, Part.out, Part.line, Part.sync, Part.pair, Part.port], p ∈ ps) :
    SameBut ps s (t.partHeard n k c) ↔ SameBut ps s t := by
  refine SameBut.step (qs := _) ?_ hs
  simp only [State.partHeard]
  repeat' split
  all_goals simp -implicitDefEqProofs

@[simp] theorem State.gapExpire_same (hs : ∀ p ∈ [Part.store, Part.apply, Part.sched, Part.out, Part.line,
    Part.sync, Part.pair, Part.port], p ∈ ps) :
    SameBut ps s (t.gapExpire) ↔ SameBut ps s t := by
  refine SameBut.step (qs := _) ?_ hs
  simp only [State.gapExpire]
  repeat' split
  all_goals simp -implicitDefEqProofs

@[simp] theorem State.syncPulse_same (hs : ∀ p ∈ [Part.store, Part.apply, Part.sched, Part.out, Part.line,
    Part.sync, Part.pair, Part.port], p ∈ ps) :
    SameBut ps s (t.syncPulse) ↔ SameBut ps s t := by
  refine SameBut.step (qs := _) ?_ hs
  simp only [State.syncPulse]
  repeat' split
  all_goals simp -implicitDefEqProofs

@[simp] theorem State.syncMuted_same (hs : ∀ p ∈ [Part.apply, Part.line, Part.sync, Part.store], p ∈ ps) :
    SameBut ps s (t.syncMuted) ↔ SameBut ps s t := by
  refine SameBut.step (qs := _) ?_ hs
  simp only [State.syncMuted]
  simp -implicitDefEqProofs

/-! ## Timebase -/

@[simp] theorem State.postLock_same (c : LockCause) (a : Option LockCause) (d : Word) (n : Option StationNo) (hs :
    ∀ p ∈ [Part.port], p ∈ ps) :
    SameBut ps s (t.postLock c a d n) ↔ SameBut ps s t := by
  refine SameBut.step (qs := _) ?_ hs
  simp only [State.postLock]
  simp -implicitDefEqProofs

@[simp] theorem State.afterCorrection_same (hs : ∀ p ∈ [Part.sched, Part.out, Part.port, Part.timing], p ∈ ps) :
    SameBut ps s (t.afterCorrection) ↔ SameBut ps s t := by
  refine SameBut.step (qs := _) ?_ hs
  simp only [State.afterCorrection]
  simp -implicitDefEqProofs

@[simp] theorem State.reportUsability_same (b : Bool) (hs : ∀ p ∈ [Part.store, Part.sched, Part.out, Part.pair,
    Part.port], p ∈ ps) :
    SameBut ps s (t.reportUsability b) ↔ SameBut ps s t := by
  refine SameBut.step (qs := _) ?_ hs
  simp only [State.reportUsability]
  repeat' split
  all_goals simp -implicitDefEqProofs

@[simp] theorem State.dropSource_same (hs : ∀ p ∈ [Part.tb, Part.line], p ∈ ps) :
    SameBut ps s (t.dropSource) ↔ SameBut ps s t := by
  refine SameBut.step (qs := _) ?_ hs
  simp only [State.dropSource]
  simp -implicitDefEqProofs

@[simp] theorem State.markHeard_same (n : StationNo) (f : Frame) (hs : ∀ p ∈ [Part.tb, Part.counter, Part.timing,
    Part.line, Part.store, Part.sched, Part.out, Part.pair, Part.port], p ∈ ps) :
    SameBut ps s (t.markHeard n f) ↔ SameBut ps s t := by
  refine SameBut.step (qs := _) ?_ hs
  simp only [State.markHeard]
  repeat' split
  all_goals simp -implicitDefEqProofs

@[simp] theorem State.silenceExpire_same (hs : ∀ p ∈ [Part.tb, Part.port], p ∈ ps) :
    SameBut ps s (t.silenceExpire) ↔ SameBut ps s t := by
  refine SameBut.step (qs := _) ?_ hs
  simp only [State.silenceExpire]
  repeat' split
  all_goals simp -implicitDefEqProofs

@[simp] theorem State.acquireExpire_same (hs : ∀ p ∈ [Part.tb, Part.port], p ∈ ps) :
    SameBut ps s (t.acquireExpire) ↔ SameBut ps s t := by
  refine SameBut.step (qs := _) ?_ hs
  simp only [State.acquireExpire]
  repeat' split
  all_goals simp -implicitDefEqProofs

@[simp] theorem State.holdoverExpire_same (hs : ∀ p ∈ [Part.tb, Part.store, Part.sched, Part.out, Part.pair,
    Part.port], p ∈ ps) :
    SameBut ps s (t.holdoverExpire) ↔ SameBut ps s t := by
  refine SameBut.step (qs := _) ?_ hs
  simp only [State.holdoverExpire]
  repeat' split
  all_goals simp -implicitDefEqProofs

@[simp] theorem State.elect_same (hs : ∀ p ∈ [Part.tb, Part.store, Part.sched, Part.out, Part.pair, Part.port], p
    ∈ ps) :
    SameBut ps s (t.elect) ↔ SameBut ps s t := by
  refine SameBut.step (qs := _) ?_ hs
  simp only [State.elect]
  repeat' split
  all_goals simp -implicitDefEqProofs

@[simp] theorem State.markDue_same (hs : ∀ p ∈ [Part.line], p ∈ ps) :
    SameBut ps s (t.markDue) ↔ SameBut ps s t := by
  refine SameBut.step (qs := _) ?_ hs
  simp only [State.markDue]
  repeat' split
  all_goals simp -implicitDefEqProofs

@[simp] theorem State.lockTimers_same (hs : ∀ p ∈ [Part.tb, Part.store, Part.sched, Part.out, Part.pair,
    Part.port], p ∈ ps) :
    SameBut ps s (t.lockTimers) ↔ SameBut ps s t := by
  refine SameBut.step (qs := _) ?_ hs
  simp only [State.lockTimers]
  repeat' split
  all_goals simp -implicitDefEqProofs

@[simp] theorem State.timebasePulse_same (hs : ∀ p ∈ [Part.tb, Part.line, Part.store, Part.sched, Part.out,
    Part.pair, Part.port], p ∈ ps) :
    SameBut ps s (t.timebasePulse) ↔ SameBut ps s t := by
  refine SameBut.step (qs := _) ?_ hs
  simp only [State.timebasePulse]
  repeat' split
  all_goals simp -implicitDefEqProofs

@[simp] theorem State.timebaseMuted_same (hs : ∀ p ∈ [Part.tb, Part.line, Part.port], p ∈ ps) :
    SameBut ps s (t.timebaseMuted) ↔ SameBut ps s t := by
  refine SameBut.step (qs := _) ?_ hs
  simp only [State.timebaseMuted]
  repeat' split
  all_goals simp -implicitDefEqProofs

@[simp] theorem State.postPeer_same (n : StationNo) (hs : ∀ p ∈ [Part.port], p ∈ ps) :
    SameBut ps s (t.postPeer n) ↔ SameBut ps s t := by
  refine SameBut.step (qs := _) ?_ hs
  simp only [State.postPeer]
  simp -implicitDefEqProofs

@[simp] theorem State.peerExpire_same (n : StationNo) (hs : ∀ p ∈ [Part.roster, Part.store, Part.sched, Part.out,
    Part.pair, Part.port], p ∈ ps) :
    SameBut ps s (t.peerExpire n) ↔ SameBut ps s t := by
  refine SameBut.step (qs := _) ?_ hs
  simp only [State.peerExpire]
  repeat' split
  all_goals simp -implicitDefEqProofs

@[simp] theorem State.peerPulse_same (n : StationNo) (hs : ∀ p ∈ [Part.roster, Part.store, Part.sched, Part.out,
    Part.pair, Part.port], p ∈ ps) :
    SameBut ps s (t.peerPulse n) ↔ SameBut ps s t := by
  refine SameBut.step (qs := _) ?_ hs
  simp only [State.peerPulse]
  repeat' split
  all_goals simp -implicitDefEqProofs

@[simp] theorem State.rosterPulse_same (hs : ∀ p ∈ [Part.roster, Part.store, Part.sched, Part.out, Part.pair,
    Part.port], p ∈ ps) :
    SameBut ps s (t.rosterPulse) ↔ SameBut ps s t := by
  refine SameBut.step (qs := _) (SameBut.all ?_ _ _) hs
  intro s n; simp

@[simp] theorem State.presenceHeard_same (n : StationNo) (p : List Byte) (hs : ∀ p ∈ [Part.roster, Part.store,
    Part.apply, Part.sched, Part.out, Part.line, Part.sync, Part.pair, Part.port], p ∈ ps) :
    SameBut ps s (t.presenceHeard n p) ↔ SameBut ps s t := by
  refine SameBut.step (qs := _) ?_ hs
  simp only [State.presenceHeard]
  repeat' split
  all_goals simp -implicitDefEqProofs

@[simp] theorem State.linePulse_same (hs : ∀ p ∈ [Part.line], p ∈ ps) :
    SameBut ps s (t.linePulse) ↔ SameBut ps s t := by
  refine SameBut.step (qs := _) ?_ hs
  simp only [State.linePulse]
  repeat' split
  all_goals simp -implicitDefEqProofs

@[simp] theorem State.raise_same (hs : ∀ p ∈ [Part.tb, Part.counter], p ∈ ps) :
    SameBut ps s (t.raise) ↔ SameBut ps s t := by
  refine SameBut.step (qs := _) ?_ hs
  simp only [State.raise]
  simp -implicitDefEqProofs

@[simp] theorem State.watch_same (hs : ∀ p ∈ [Part.tb], p ∈ ps) :
    SameBut ps s (t.watch) ↔ SameBut ps s t := by
  refine SameBut.step (qs := _) ?_ hs
  simp only [State.watch]
  simp -implicitDefEqProofs

/-! ## Pulse -/

@[simp] theorem State.blocks_same (p : Pulse) (hs : ∀ p ∈ [Part.tb, Part.timing, Part.roster, Part.store,
    Part.apply, Part.sched, Part.out, Part.line, Part.sync, Part.pair, Part.port], p ∈ ps) :
    SameBut ps s (t.blocks p) ↔ SameBut ps s t := by
  refine SameBut.step (qs := _) (SameBut.all ?_ _ _) hs
  intro s b; cases b <;> simp [State.blockPulse]

@[simp] theorem State.refReturned_same (p : Pulse) (hs : ∀ p ∈ [Part.counter, Part.tb, Part.timing, Part.roster,
    Part.store, Part.apply, Part.sched, Part.out, Part.line, Part.sync, Part.pair, Part.port], p ∈ ps) :
    SameBut ps s (t.refReturned p) ↔ SameBut ps s t := by
  refine SameBut.step (qs := _) ?_ hs
  simp only [State.refReturned]
  repeat' split
  all_goals simp -implicitDefEqProofs

@[simp] theorem State.loseRef_same (p : Pulse) (hs : ∀ p ∈ [Part.counter, Part.tb, Part.timing, Part.roster,
    Part.store, Part.apply, Part.sched, Part.out, Part.line, Part.sync, Part.pair, Part.port], p ∈ ps) :
    SameBut ps s (t.loseRef p) ↔ SameBut ps s t := by
  refine SameBut.step (qs := _) ?_ hs
  simp only [State.loseRef]
  repeat' split
  all_goals simp -implicitDefEqProofs

/-! ## Line -/

@[simp] theorem State.beginAttempt_same (c : TxClass) (m : TxMsg) (hs : ∀ p ∈ [Part.line, Part.apply], p ∈ ps) :
    SameBut ps s (t.beginAttempt c m) ↔ SameBut ps s t := by
  refine SameBut.step (qs := _) ?_ hs
  simp only [State.beginAttempt]
  repeat' split
  all_goals simp -implicitDefEqProofs

@[simp] theorem State.tryAttempt_same (n : Nat) (hs : ∀ p ∈ [Part.line, Part.apply], p ∈ ps) :
    SameBut ps s (t.tryAttempt n) ↔ SameBut ps s t := by
  refine SameBut.step (qs := _) ?_ hs
  simp only [State.tryAttempt]
  repeat' split
  all_goals simp -implicitDefEqProofs

@[simp] theorem State.endAttempt_same (d : List Byte) (hs : ∀ p ∈ [Part.line, Part.apply], p ∈ ps) :
    SameBut ps s (t.endAttempt d) ↔ SameBut ps s t := by
  refine SameBut.step (qs := _) ?_ hs
  simp only [State.endAttempt]
  simp -implicitDefEqProofs

@[simp] theorem State.leaveFlight_same (c : TxClass) (hs : ∀ p ∈ [Part.line], p ∈ ps) :
    SameBut ps s (t.leaveFlight c) ↔ SameBut ps s t := by
  refine SameBut.step (qs := _) ?_ hs
  simp only [State.leaveFlight]
  simp -implicitDefEqProofs

@[simp] theorem State.reportGiveUp_same (m : OutMsg) (hs : ∀ p ∈ [Part.store, Part.apply, Part.sched, Part.out,
    Part.line, Part.sync, Part.pair, Part.port], p ∈ ps) :
    SameBut ps s (t.reportGiveUp m) ↔ SameBut ps s t := by
  refine SameBut.step (qs := _) ?_ hs
  simp only [State.reportGiveUp]
  repeat' split
  all_goals simp -implicitDefEqProofs

@[simp] theorem State.collide_same (hs : ∀ p ∈ [Part.store, Part.apply, Part.sched, Part.out, Part.line,
    Part.sync, Part.pair, Part.port], p ∈ ps) :
    SameBut ps s (t.collide) ↔ SameBut ps s t := by
  refine SameBut.step (qs := _) ?_ hs
  simp only [State.collide]
  repeat' split
  all_goals simp -implicitDefEqProofs

@[simp] theorem State.ownCopy_same (m : Ordered) (hs : ∀ p ∈ [Part.apply, Part.line, Part.sync, Part.store], p ∈ ps) :
    SameBut ps s (t.ownCopy m) ↔ SameBut ps s t := by
  refine SameBut.step (qs := _) ?_ hs
  simp only [State.ownCopy]
  repeat' split
  all_goals simp -implicitDefEqProofs

@[simp] theorem State.completed_same (m : TxMsg) (hs : ∀ p ∈ [Part.roster, Part.store, Part.apply, Part.sched,
    Part.out, Part.line, Part.sync, Part.pair, Part.port], p ∈ ps) :
    SameBut ps s (t.completed m) ↔ SameBut ps s t := by
  refine SameBut.step (qs := _) ?_ hs
  simp only [State.completed]
  repeat' split
  all_goals simp -implicitDefEqProofs

@[simp] theorem State.complete_same (hs : ∀ p ∈ [Part.roster, Part.store, Part.apply, Part.sched, Part.out,
    Part.line, Part.sync, Part.pair, Part.port], p ∈ ps) :
    SameBut ps s (t.complete) ↔ SameBut ps s t := by
  refine SameBut.step (qs := _) ?_ hs
  simp only [State.complete]
  repeat' split
  all_goals simp -implicitDefEqProofs

@[simp] theorem State.mute_same (hs : ∀ p ∈ [Part.tb, Part.store, Part.apply, Part.sched, Part.out, Part.line,
    Part.sync, Part.pair, Part.port], p ∈ ps) :
    SameBut ps s (t.mute) ↔ SameBut ps s t := by
  refine SameBut.step (qs := _) ?_ hs
  simp only [State.mute]
  repeat' split
  all_goals simp -implicitDefEqProofs

@[simp] theorem State.rxOver_same (hs : ∀ p ∈ [Part.line], p ∈ ps) :
    SameBut ps s (t.rxOver) ↔ SameBut ps s t := by
  refine SameBut.step (qs := _) ?_ hs
  simp only [State.rxOver]
  simp -implicitDefEqProofs

@[simp] theorem State.count_same (f : LineRecord → LineRecord) (hs : ∀ p ∈ [Part.line], p ∈ ps) :
    SameBut ps s (t.count f) ↔ SameBut ps s t := by
  refine SameBut.step (qs := _) ?_ hs
  simp only [State.count]
  simp -implicitDefEqProofs

@[simp] theorem State.reject_same (r : Reception) (hs : ∀ p ∈ [Part.tb, Part.store, Part.apply, Part.sched,
    Part.out, Part.line, Part.sync, Part.pair, Part.port], p ∈ ps) :
    SameBut ps s (t.reject r) ↔ SameBut ps s t := by
  refine SameBut.step (qs := _) ?_ hs
  simp only [State.reject]
  repeat' split
  all_goals simp -implicitDefEqProofs

/-! ## Apply -/

@[simp] theorem State.commit_same (r : Replica) (hs : ∀ p ∈ [Part.store, Part.live], p ∈ ps) :
    SameBut ps s (t.commit r) ↔ SameBut ps s t := by
  refine SameBut.step (qs := _) ?_ hs
  simp only [State.commit]
  simp -implicitDefEqProofs

@[simp] theorem State.closeApply_same (hs : ∀ p ∈ [Part.apply, Part.line, Part.sync, Part.store], p ∈ ps) :
    SameBut ps s (t.closeApply) ↔ SameBut ps s t := by
  refine SameBut.step (qs := _) ?_ hs
  simp only [State.closeApply]
  simp -implicitDefEqProofs

@[simp] theorem State.gapFound_same (k : Kind) (w : Word) (hs : ∀ p ∈ [Part.store, Part.apply, Part.sched,
    Part.out, Part.line, Part.sync, Part.pair, Part.port], p ∈ ps) :
    SameBut ps s (t.gapFound k w) ↔ SameBut ps s t := by
  refine SameBut.step (qs := _) ?_ hs
  simp only [State.gapFound]
  simp -implicitDefEqProofs

@[simp] theorem State.editDone_same (m : EditMsg) (r : Result) (i : Nat) (l : List ItemId) (hs : ∀ p ∈
    [Part.port], p ∈ ps) :
    SameBut ps s (t.editDone m r i l) ↔ SameBut ps s t := by
  refine SameBut.step (qs := _) ?_ hs
  simp only [State.editDone]
  simp -implicitDefEqProofs

@[simp] theorem State.refuseEdit_same (m : EditMsg) (r : Result) (i : Nat) (hs : ∀ p ∈ [Part.port, Part.apply,
    Part.line, Part.sync, Part.store], p ∈ ps) :
    SameBut ps s (t.refuseEdit m r i) ↔ SameBut ps s t := by
  refine SameBut.step (qs := _) ?_ hs
  simp only [State.refuseEdit]
  simp -implicitDefEqProofs

@[simp] theorem State.acceptEdit_same (m : EditMsg) (b : Batch) (hs : ∀ p ∈ [Part.timing, Part.sched, Part.out,
    Part.port, Part.live, Part.apply, Part.line, Part.sync, Part.store], p ∈ ps) :
    SameBut ps s (t.acceptEdit m b) ↔ SameBut ps s t := by
  refine SameBut.step (qs := _) ?_ hs
  simp only [State.acceptEdit]
  simp -implicitDefEqProofs

@[simp] theorem State.editNext_same (row : RawOp → Bool) (m : EditMsg) (b : Batch) (hs : ∀ p ∈ [Part.timing,
    Part.sched, Part.out, Part.port, Part.live, Part.apply, Part.line, Part.sync, Part.store], p ∈ ps) :
    SameBut ps s (t.editNext row m b) ↔ SameBut ps s t := by
  refine SameBut.step (qs := _) ?_ hs
  simp only [State.editNext]
  repeat' split
  all_goals simp -implicitDefEqProofs

@[simp] theorem State.applyEdit_same (row : RawOp → Bool) (hs : ∀ p ∈ [Part.timing, Part.live, Part.store,
    Part.apply, Part.sched, Part.out, Part.line, Part.sync, Part.pair, Part.port], p ∈ ps) :
    SameBut ps s (t.applyEdit row) ↔ SameBut ps s t := by
  refine SameBut.step (qs := _) ?_ hs
  simp only [State.applyEdit]
  repeat' split
  all_goals simp -implicitDefEqProofs

@[simp] theorem State.reportScheduler_same (m : AirMsg) (o n : Replica) (hs : ∀ p ∈ [Part.sched, Part.out,
    Part.port], p ∈ ps) :
    SameBut ps s (t.reportScheduler m o n) ↔ SameBut ps s t := by
  refine SameBut.step (qs := _) ?_ hs
  simp only [State.reportScheduler]
  repeat' split
  all_goals simp -implicitDefEqProofs

@[simp] theorem State.reportTiming_same (m : AirMsg) (o n : Replica) (hs : ∀ p ∈ [Part.timing, Part.store,
    Part.port], p ∈ ps) :
    SameBut ps s (t.reportTiming m o n) ↔ SameBut ps s t := by
  refine SameBut.step (qs := _) ?_ hs
  simp only [State.reportTiming]
  repeat' split
  all_goals simp -implicitDefEqProofs

@[simp] theorem State.applyAir_same (row : AirMsg → Bool) (hs : ∀ p ∈ [Part.timing, Part.live, Part.store,
    Part.apply, Part.sched, Part.out, Part.line, Part.sync, Part.pair, Part.port], p ∈ ps) :
    SameBut ps s (t.applyAir row) ↔ SameBut ps s t := by
  refine SameBut.step (qs := _) ?_ hs
  simp only [State.applyAir]
  repeat' split
  all_goals simp -implicitDefEqProofs

/-! ## Store operations -/

@[simp] theorem State.freezeDone_same (hs : ∀ p ∈ [Part.apply, Part.line, Part.sync, Part.store], p ∈ ps) :
    SameBut ps s (t.freezeDone) ↔ SameBut ps s t := by
  refine SameBut.step (qs := _) ?_ hs
  simp only [State.freezeDone]
  repeat' split
  all_goals simp -implicitDefEqProofs

@[simp] theorem State.partReadDone_same (k : Nat) (hs : ∀ p ∈ [Part.apply, Part.line, Part.sync, Part.store], p ∈
    ps) :
    SameBut ps s (t.partReadDone k) ↔ SameBut ps s t := by
  refine SameBut.step (qs := _) ?_ hs
  simp only [State.partReadDone]
  repeat' split
  all_goals simp -implicitDefEqProofs

@[simp] theorem State.partWriteDone_same (k : Nat) (c : List Byte) (hs : ∀ p ∈ [Part.store, Part.apply,
    Part.sched, Part.out, Part.line, Part.sync, Part.pair, Part.port], p ∈ ps) :
    SameBut ps s (t.partWriteDone k c) ↔ SameBut ps s t := by
  refine SameBut.step (qs := _) ?_ hs
  simp only [State.partWriteDone]
  repeat' split
  all_goals simp -implicitDefEqProofs

@[simp] theorem State.shadowCheckDone_same (hs : ∀ p ∈ [Part.store, Part.apply, Part.sched, Part.out, Part.line,
    Part.sync, Part.pair, Part.port], p ∈ ps) :
    SameBut ps s (t.shadowCheckDone) ↔ SameBut ps s t := by
  refine SameBut.step (qs := _) ?_ hs
  simp only [State.shadowCheckDone]
  repeat' split
  all_goals simp -implicitDefEqProofs

@[simp] theorem State.swapDone_same (hs : ∀ p ∈ [Part.timing, Part.live, Part.store, Part.apply, Part.sched,
    Part.out, Part.line, Part.sync, Part.pair, Part.port], p ∈ ps) :
    SameBut ps s (t.swapDone) ↔ SameBut ps s t := by
  refine SameBut.step (qs := _) ?_ hs
  simp only [State.swapDone]
  repeat' split
  all_goals simp -implicitDefEqProofs

/-! ## Requests -/

@[simp] theorem State.wholeTransfer_same (f : Port → Port) (hs : ∀ p ∈ [Part.port], p ∈ ps) :
    SameBut ps s (t.wholeTransfer f) ↔ SameBut ps s t := by
  refine SameBut.step (qs := _) ?_ hs
  simp only [State.wholeTransfer]
  simp -implicitDefEqProofs

@[simp] theorem State.beginTransfer_same (f : Port → Port) (hs : ∀ p ∈ [Part.port], p ∈ ps) :
    SameBut ps s (t.beginTransfer f) ↔ SameBut ps s t := by
  refine SameBut.step (qs := _) ?_ hs
  simp only [State.beginTransfer]
  simp -implicitDefEqProofs

@[simp] theorem State.endTransfer_same (b : Byte) (f : Port → Port) (hs : ∀ p ∈ [Part.port], p ∈ ps) :
    SameBut ps s (t.endTransfer b f) ↔ SameBut ps s t := by
  refine SameBut.step (qs := _) ?_ hs
  simp only [State.endTransfer]
  simp -implicitDefEqProofs

@[simp] theorem State.requestDone_same (hs : ∀ p ∈ [Part.port], p ∈ ps) :
    SameBut ps s (t.requestDone) ↔ SameBut ps s t := by
  refine SameBut.step (qs := _) ?_ hs
  simp only [State.requestDone]
  simp -implicitDefEqProofs

@[simp] theorem State.refuse_same (k : Option ReqKind) (r : RefuseReason) (d : RefuseDetail) (hs : ∀ p ∈
    [Part.port], p ∈ ps) :
    SameBut ps s (t.refuse k r d) ↔ SameBut ps s t := by
  refine SameBut.step (qs := _) ?_ hs
  simp only [State.refuse]
  simp -implicitDefEqProofs

@[simp] theorem State.offer_same (k : ReqKind) (d : RefuseDetail) (m : OutMsg) (hs : ∀ p ∈ [Part.line, Part.port],
    p ∈ ps) :
    SameBut ps s (t.offer k d m) ↔ SameBut ps s t := by
  refine SameBut.step (qs := _) ?_ hs
  simp only [State.offer]
  repeat' split
  all_goals simp -implicitDefEqProofs

@[simp] theorem State.airRequest_same (k : ReqKind) (d : RefuseDetail) (l : List (Bool × RefuseReason)) (m :
    Option AirMsg) (hs : ∀ p ∈ [Part.line, Part.port], p ∈ ps) :
    SameBut ps s (t.airRequest k d l m) ↔ SameBut ps s t := by
  refine SameBut.step (qs := _) ?_ hs
  simp only [State.airRequest]
  repeat' split
  all_goals simp -implicitDefEqProofs

@[simp] theorem State.propose_same (f : List Byte) (hs : ∀ p ∈ [Part.apply, Part.line, Part.port], p ∈ ps) :
    SameBut ps s (t.propose f) ↔ SameBut ps s t := by
  refine SameBut.step (qs := _) ?_ hs
  simp only [State.propose]
  repeat' split
  all_goals simp -implicitDefEqProofs

@[simp] theorem State.yieldOffer_same (hs : ∀ p ∈ [Part.line, Part.pair, Part.port], p ∈ ps) :
    SameBut ps s (t.yieldOffer) ↔ SameBut ps s t := by
  refine SameBut.step (qs := _) ?_ hs
  simp only [State.yieldOffer]
  repeat' split
  all_goals simp -implicitDefEqProofs

@[simp] theorem State.storeRead_same (op : StoreOp) (hs : ∀ p ∈ [Part.store, Part.port], p ∈ ps) :
    SameBut ps s (t.storeRead op) ↔ SameBut ps s t := by
  refine SameBut.step (qs := _) ?_ hs
  simp only [State.storeRead]
  simp -implicitDefEqProofs

end Sys2Proof.Machine
end

