-- ==== Sys2Proof/Laws/Lawful.lean ====
section
/-! SUPPORT. The law of the replica (R7, R10, R16) through every operation on a replica, and through every operation over the
station. -/

namespace Sys2Proof.Machine

set_option Elab.async false

variable {r : Replica}

/-! ## Lists -/

/-- The cues of a list of items. -/
def cuesOf (l : List Item) : Nat := (l.map fun i => i.cues.length).sum

theorem Replica.cueCount_eq (r : Replica) : r.cueCount = cuesOf r.items := by
  have h (l : List Item) (n : Nat) : l.foldl (fun n i => n + i.cues.length) n = n + cuesOf l := by
    induction l generalizing n with
    | nil => rfl
    | cons a l ih => simp only [List.foldl_cons, ih, cuesOf, List.map_cons, List.sum_cons]; omega
  exact (h r.items 0).trans (Nat.zero_add _)

theorem cuesOf_perm {l m : List Item} (h : l.Perm m) : cuesOf l = cuesOf m := (h.map _).sum_nat

theorem eq_of_id {l : List Item} (h : (l.map (·.id)).Nodup) {i j : Item} (hi : i ∈ l) (hj : j ∈ l) (he : i.id = j.id) : i = j := by
  induction l with
  | nil => cases hi
  | cons a l ih =>
    simp only [List.map_cons, List.nodup_cons, List.mem_map, not_exists, not_and] at h
    rcases List.mem_cons.mp hi with ei | mi <;> rcases List.mem_cons.mp hj with ej | mj
    · exact ei.trans ej.symm
    · exact absurd (ei ▸ he.symm) (h.1 j mj)
    · exact absurd (ej ▸ he) (h.1 i mi)
    · exact ih h.2 mi mj

/-- A list of at most one member that satisfies `p` has no two such. -/
theorem countP_one {l : List Item} {p : Item → Bool} (h : l.countP p ≤ 1) {i j : Item} (hi : i ∈ l) (hj : j ∈ l) (pi : p i = true)
    (pj : p j = true) : i = j := by
  induction l with
  | nil => cases hi
  | cons a l ih =>
    have pos {x : Item} (hx : x ∈ l) (px : p x = true) : 0 < l.countP p := List.countP_pos_iff.mpr ⟨x, hx, px⟩
    rcases List.mem_cons.mp hi with ei | mi <;> rcases List.mem_cons.mp hj with ej | mj
    · exact ei.trans ej.symm
    · have := pos mj pj; rw [List.countP_cons_of_pos (ei ▸ pi)] at h; omega
    · have := pos mi pi; rw [List.countP_cons_of_pos (ej ▸ pj)] at h; omega
    · exact ih (Nat.le_trans (by rw [List.countP_cons]; omega) h) mi mj

/-! ## Cues in slot order -/

theorem slotsAscend_iff {l : List Cue} : slotsAscend l = true ↔ l.Pairwise fun a b => a.slot < b.slot := by
  induction l with
  | nil => simp [slotsAscend]
  | cons a l ih =>
    cases l with
    | nil => simp [slotsAscend]
    | cons b l =>
      simp only [slotsAscend, Bool.and_eq_true, decide_eq_true_eq, ih]
      constructor
      · rintro ⟨h, k⟩
        refine List.pairwise_cons.mpr ⟨fun x hx => ?_, k⟩
        rcases List.mem_cons.mp hx with rfl | hx
        · exact h
        · exact Fin.lt_trans h ((List.pairwise_cons.mp k).1 x hx)
      · intro h
        exact ⟨(List.pairwise_cons.mp h).1 b (by simp), (List.pairwise_cons.mp h).2⟩

theorem mem_insertCue {c x : Cue} {l : List Cue} : x ∈ insertCue c l ↔ x = c ∨ x ∈ l := by
  induction l with
  | nil => simp [insertCue]
  | cons a l ih =>
    unfold insertCue
    split
    · simp
    · simp only [List.mem_cons, ih, or_left_comm]

theorem insertCue_length (c : Cue) (l : List Cue) : (insertCue c l).length = l.length + 1 := by
  induction l with
  | nil => rfl
  | cons a l ih => unfold insertCue; split <;> simp [ih]

theorem insertCue_ascends {c : Cue} {l : List Cue} (h : slotsAscend l = true) (hc : ∀ x ∈ l, x.slot ≠ c.slot) :
    slotsAscend (insertCue c l) = true := by
  rw [slotsAscend_iff] at h ⊢
  induction l with
  | nil => simp [insertCue]
  | cons a l ih =>
    have k := List.pairwise_cons.mp h
    unfold insertCue
    split
    · next hlt =>
      refine List.pairwise_cons.mpr ⟨fun x hx => ?_, h⟩
      rcases List.mem_cons.mp hx with rfl | hx
      · exact hlt
      · exact Fin.lt_trans hlt (k.1 x hx)
    · next hge =>
      refine List.pairwise_cons.mpr ⟨fun x hx => ?_, ih k.2 fun x hx => hc x (List.mem_cons_of_mem _ hx)⟩
      rcases mem_insertCue.mp hx with rfl | hx
      · have := hc a (by simp)
        have hv : a.slot.val ≠ x.slot.val := fun e => this (Fin.ext e)
        have hg := Fin.not_lt.mp hge
        rw [Fin.le_def] at hg
        exact Fin.lt_def.mpr (by omega)
      · exact k.1 x hx

theorem sortCues_length (l : List Cue) : (sortCues l).length = l.length := by
  induction l with
  | nil => rfl
  | cons a l ih => simp only [sortCues, List.foldr_cons, insertCue_length, List.length_cons]; exact congrArg (· + 1) ih

theorem mem_sortCues {x : Cue} {l : List Cue} : x ∈ sortCues l ↔ x ∈ l := by
  induction l with
  | nil => simp [sortCues]
  | cons a l ih =>
    have : sortCues (a :: l) = insertCue a (sortCues l) := rfl
    rw [this, mem_insertCue, ih, List.mem_cons]

theorem sortCues_ascends {l : List Cue} (h : sharesSlot l = false) : slotsAscend (sortCues l) = true := by
  induction l with
  | nil => rfl
  | cons a l ih =>
    simp only [sharesSlot, Bool.or_eq_false_iff, List.any_eq_false, decide_eq_true_eq] at h
    exact insertCue_ascends (ih h.2) fun x hx => h.1 x (mem_sortCues.mp hx)

/-- Slots ascend, so there are at most 16. -/
theorem slots_le {l : List Cue} (h : slotsAscend l = true) : l.length ≤ maxItemCues := by
  rw [slotsAscend_iff] at h
  have bound (l : List Cue) (n : Nat) (h : l.Pairwise fun a b => a.slot < b.slot) (hn : ∀ x ∈ l, n ≤ x.slot.val) :
      l.length + n ≤ 16 ∨ l = [] := by
    induction l generalizing n with
    | nil => exact .inr rfl
    | cons a l ih =>
      have k := List.pairwise_cons.mp h
      have ha := hn a (by simp)
      have hlt := a.slot.isLt
      rcases ih (a.slot.val + 1) k.2 (fun x hx => Fin.lt_def.mp (k.1 x hx)) with h | h
      · left; simp only [List.length_cons]; omega
      · left; subst h; simp only [List.length_cons, List.length_nil]; omega
  rcases bound l 0 h (fun _ _ => Nat.zero_le _) with h | h
  · exact h
  · simp [h]

/-! ## What keeps the law -/

/-- The law does not look at the header. -/
theorem Replica.lawful_items {q : Replica} (h : r.lawful) (hi : q.items = r.items) : q.lawful := by
  unfold Replica.lawful at *
  rw [Replica.cueCount_eq] at *
  rw [hi]
  exact h

/-- Nor at the order. -/
theorem Replica.lawful_perm {q : Replica} (h : r.lawful) (hp : q.items.Perm r.items) : q.lawful := by
  unfold Replica.lawful at *
  rw [Replica.cueCount_eq] at *
  rw [hp.length_eq, (hp.map _).nodup_iff, cuesOf_perm hp]
  simp only [hp.mem_iff]
  exact h

/-- Some items alone. -/
theorem Replica.lawful_sublist {q : Replica} (h : r.lawful) (hs : q.items.Sublist r.items) : q.lawful := by
  obtain ⟨h1, h2, h3, h4, h5, h6⟩ := h
  rw [Replica.cueCount_eq] at h3
  refine ⟨Nat.le_trans hs.length_le h1, (hs.map _).nodup h2, ?_, fun i hi => h4 i (hs.subset hi),
    fun i hi j hj => h5 i (hs.subset hi) j (hs.subset hj), fun i hi j hj => h6 i (hs.subset hi) j (hs.subset hj)⟩
  rw [Replica.cueCount_eq]
  refine Nat.le_trans ?_ h3
  have le {l m : List Item} (hs : l.Sublist m) : cuesOf l ≤ cuesOf m := by
    induction hs with
    | slnil => exact Nat.le_refl _
    | cons a _ ih => simp only [cuesOf, List.map_cons, List.sum_cons] at *; omega
    | cons_cons a _ ih => simp only [cuesOf, List.map_cons, List.sum_cons] at *; omega
  exact le hs

/-- Items changed one by one, each kept under its id, lawful, with no more cues in all; none becomes ON_AIR or STANDING_BY beside
another. -/
theorem Replica.lawful_map {q : Replica} (h : r.lawful) {f : Item → Item} (hq : q.items = r.items.map f)
    (hid : ∀ i, (f i).id = i.id) (hl : ∀ i ∈ r.items, (f i).lawful) (hc : cuesOf (r.items.map f) ≤ maxCues)
    (ha : ∀ i ∈ r.items, ∀ j ∈ r.items, (f i).status.isOnAir = true → (f j).status.isOnAir = true → i.id = j.id)
    (hs : ∀ i ∈ r.items, ∀ j ∈ r.items, (f i).status = .standingBy → (f j).status = .standingBy → i.id = j.id) : q.lawful := by
  obtain ⟨h1, h2, -⟩ := h
  refine ⟨by simpa [hq] using h1, ?_, by rw [Replica.cueCount_eq, hq]; exact hc, ?_, ?_, ?_⟩
  · rw [hq, List.map_map]
    have : ((·.id) ∘ f) = (fun i : Item => i.id) := funext hid
    rw [this]
    exact h2
  all_goals simp only [hq, List.mem_map, forall_exists_index, and_imp, forall_apply_eq_imp_iff₂]
  · exact hl
  · simpa only [hid] using ha
  · simpa only [hid] using hs

theorem Replica.lawful_empty : Replica.empty.lawful :=
  ⟨Nat.zero_le _, List.nodup_nil, Nat.zero_le _, (fun _ h => nomatch h), (fun _ h => nomatch h), fun _ h => nomatch h⟩

@[simp] theorem Replica.lawful_header (v a c : Word) (o : Option Frame) :
    (⟨v, a, o, c, r.items⟩ : Replica).lawful ↔ r.lawful :=
  ⟨fun h => Replica.lawful_items h rfl, fun h => Replica.lawful_items h rfl⟩

@[simp] theorem Replica.sealed_lawful : r.sealed.lawful ↔ r.lawful := Replica.lawful_header ..

/-! ## Edit operations (R32 to R39) -/

theorem Replica.item_mem {id : ItemId} {i : Item} (h : r.item id = some i) : i ∈ r.items ∧ i.id = id := by
  unfold Replica.item at h
  exact ⟨List.mem_of_find?_eq_some h, by simpa using List.find?_some h⟩

theorem Replica.has_iff {id : ItemId} : r.has id = true ↔ ∃ i ∈ r.items, i.id = id := by
  simp [Replica.has, Replica.item, List.find?_isSome]

/-- An item placed anywhere is one item more. -/
theorem placeAfter_perm {i : Item} {a : Option ItemId} {l : List Item} (hn : (l.map (·.id)).Nodup)
    (ha : ∀ x, a = some x → ∃ j ∈ l, j.id = x) : (placeAfter i a l).Perm (i :: l) := by
  cases a with
  | none => exact List.Perm.refl _
  | some x =>
    obtain ⟨j, hj, he⟩ := ha x rfl
    simp only [placeAfter]
    induction l with
    | nil => cases hj
    | cons b l ih =>
      simp only [List.map_cons, List.nodup_cons, List.mem_map, not_exists, not_and] at hn
      have rest (hb : ∀ y ∈ l, y.id ≠ x) : (l.flatMap fun y => if y.id = x then [y, i] else [y]) = l := by
        clear ih hj hn ha
        induction l with
        | nil => rfl
        | cons d l ihl =>
          simp only [List.flatMap_cons, hb d (by simp), if_false, List.singleton_append]
          rw [ihl fun z hz => hb z (List.mem_cons_of_mem _ hz)]
      simp only [List.flatMap_cons]
      split
      · next hx =>
        rw [rest fun y hy hyx => hn.1 y hy (hyx.trans hx.symm)]
        exact List.Perm.swap _ _ _
      · next hx =>
        rcases List.mem_cons.mp hj with rfl | hj
        · exact absurd he hx
        · exact ((ih hn.2 (fun y hy => by cases hy; exact ⟨j, hj, he⟩) hj).cons b).trans (List.Perm.swap _ _ _)

/-- An item added in a state that no other may need. -/
theorem Replica.lawful_cons {q : Replica} (h : r.lawful) {i : Item} (hq : q.items.Perm (i :: r.items))
    (hlen : r.items.length < maxItems) (hnew : r.has i.id = false) (hc : r.cueCount + i.cues.length ≤ maxCues) (hi : i.lawful)
    (ha : i.status.isOnAir = true → ∀ j ∈ r.items, j.status.isOnAir = false)
    (hs : i.status = .standingBy → ∀ j ∈ r.items, j.status ≠ .standingBy) : q.lawful := by
  have hn : ∀ j ∈ r.items, j.id ≠ i.id := fun j hj he => by
    have := Replica.has_iff.mpr ⟨j, hj, he⟩
    rw [hnew] at this
    cases this
  obtain ⟨h1, h2, h3, h4, h5, h6⟩ := h
  refine Replica.lawful_perm (r := { r with items := i :: r.items }) ⟨?_, ?_, ?_, ?_, ?_, ?_⟩ hq
  · simp only [List.length_cons]; omega
  · simp only [List.map_cons, List.nodup_cons, List.mem_map, not_exists, not_and]
    exact ⟨hn, h2⟩
  · rw [Replica.cueCount_eq] at hc ⊢
    simp only [cuesOf, List.map_cons, List.sum_cons] at hc ⊢
    omega
  · simpa using ⟨hi, h4⟩
  · intro x hx y hy px py
    rcases List.mem_cons.mp hx with ex | mx <;> rcases List.mem_cons.mp hy with ey | my
    · rw [ex, ey]
    · exact absurd py (by simp [ha (ex ▸ px) y my])
    · exact absurd px (by simp [ha (ey ▸ py) x mx])
    · exact h5 x mx y my px py
  · intro x hx y hy px py
    rcases List.mem_cons.mp hx with ex | mx <;> rcases List.mem_cons.mp hy with ey | my
    · rw [ex, ey]
    · exact absurd py (hs (ex ▸ px) y my)
    · exact absurd px (hs (ey ▸ py) x mx)
    · exact h6 x mx y my px py

theorem readCues_length {raw : List (List Byte)} {cs : List Cue} (h : readCues raw = some cs) : cs.length = raw.length := by
  induction raw generalizing cs with
  | nil => cases h; rfl
  | cons b l ih =>
    unfold readCues at h
    split at h
    · next hc => cases h; simp [ih hc]
    · cases h

/-- A check passed. -/
theorem passed {α : Type} {c : Prop} [Decidable c] {e : Result} {x : Except Result α} {q : α}
    (h : (if c then .error e else x) = .ok q) : ¬ c ∧ x = .ok q := by
  split at h
  · cases h
  · next hc => exact ⟨hc, h⟩

theorem Replica.lacks_item {a : Option ItemId} (h : r.lacks a = false) (x : ItemId) (hx : a = some x) :
    ∃ j ∈ r.items, j.id = x := by
  subst hx
  exact Replica.has_iff.mp (by simpa [Replica.lacks] using h)

theorem Replica.insert_lawful (h : r.lawful) {a : Option ItemId} {id : ItemId} {slug : List Byte} {planned : BitVec 24}
    {flags : Byte} {short : BitVec 24} {raw : List (List Byte)} {q : Replica}
    (he : r.insert a id slug planned flags short raw = .ok q) : q.lawful := by
  unfold Replica.insert at he
  obtain ⟨hraw, he⟩ := passed he
  split at he
  · cases he
  next cs hcs =>
    split at he
    · cases he
    next i hi =>
      obtain ⟨hsh, he⟩ := passed he
      obtain ⟨hhas, he⟩ := passed he
      obtain ⟨hanchor, he⟩ := passed he
      obtain ⟨hlen, he⟩ := passed he
      obtain ⟨hcount, he⟩ := passed he
      cases he
      have hid : i.id = id ∧ i.status = .pending ∧ i.cues = sortCues cs := by
        unfold insertItem at hi
        split at hi
        · cases hi; exact ⟨rfl, rfl, rfl⟩
        · cases hi
      have hl : cs.length = raw.length := readCues_length hcs
      have hlc : i.cues.length = cs.length := by rw [hid.2.2, sortCues_length]
      refine Replica.lawful_cons h (i := i) (placeAfter_perm h.2.1 (Replica.lacks_item (by simpa using hanchor))) (by omega) ?_ ?_
        ⟨?_, ?_⟩ ?_ ?_
      · rw [hid.1]; simpa using hhas
      · omega
      · omega
      · rw [hid.2.2]; exact sortCues_ascends (by simpa using hsh)
      · simp [hid.2.1, ItemStatus.isOnAir]
      · simp [hid.2.1]

theorem Replica.delete_lawful (h : r.lawful) {id : ItemId} {q : Replica} (he : r.delete id = .ok q) : q.lawful := by
  unfold Replica.delete at he
  split at he <;> cases he
  exact Replica.lawful_sublist h List.filter_sublist

theorem Replica.unlocked_item {id : ItemId} {i : Item} (h : r.unlocked id = .ok i) :
    r.item id = some i ∧ i.status.isLocked = false := by
  unfold Replica.unlocked at h
  split at h
  · cases h
  · next hi =>
    split at h
    · cases h
    · next hl => cases h; exact ⟨hi, by simpa using hl⟩

/-- An item taken out of its list and put before it is the same list in another order. -/
theorem filter_perm {l : List Item} (hn : (l.map (·.id)).Nodup) {i : Item} (hi : i ∈ l) :
    (i :: l.filter fun x => decide (x.id ≠ i.id)).Perm l := by
  induction l with
  | nil => cases hi
  | cons a l ih =>
    have hn' := hn
    simp only [List.map_cons, List.nodup_cons, List.mem_map, not_exists, not_and] at hn
    rcases List.mem_cons.mp hi with rfl | hi
    · have : (i :: l).filter (fun x => decide (x.id ≠ i.id)) = l := by
        simp only [List.filter_cons, ne_eq, not_true_eq_false, decide_false, Bool.false_eq_true, if_false]
        exact List.filter_eq_self.mpr fun x hx => by simpa using hn.1 x hx
      rw [this]
    · have : a.id ≠ i.id := fun e => hn.1 i hi e.symm
      simp only [List.filter_cons, this, ne_eq, not_false_eq_true, decide_true, if_true]
      exact (List.Perm.swap _ _ _).trans ((ih hn.2 hi).cons a)

theorem Replica.move_lawful (h : r.lawful) {id : ItemId} {a : Option ItemId} {q : Replica} (he : r.move id a = .ok q) :
    q.lawful := by
  unfold Replica.move at he
  split at he
  · cases he
  next i hi =>
    obtain ⟨hanchor, he⟩ := passed he
    cases he
    obtain ⟨hm, rfl⟩ := Replica.item_mem (Replica.unlocked_item hi).1
    simp only [Bool.or_eq_true, decide_eq_true_eq, not_or, Bool.not_eq_true] at hanchor
    have hs : (r.items.filter fun x => decide (x.id ≠ i.id)).Sublist r.items := List.filter_sublist
    refine Replica.lawful_perm h ((placeAfter_perm ((hs.map _).nodup h.2.1) fun x hx => ?_).trans (filter_perm h.2.1 hm))
    obtain ⟨j, hj, hjx⟩ := Replica.lacks_item hanchor.1 x hx
    refine ⟨j, List.mem_filter.mpr ⟨hj, decide_eq_true fun e => hanchor.2 ?_⟩, hjx⟩
    rw [hx, ← hjx, e]

/-- One item changed as the law allows, its status kept. -/
theorem Replica.mapItem_lawful (h : r.lawful) {i : Item} (hi : i ∈ r.items) {f : Item → Item} (hid : (f i).id = i.id)
    (hst : (f i).status = i.status) (hl : (f i).lawful) (hc : r.cueCount + (f i).cues.length ≤ maxCues + i.cues.length) :
    (r.mapItem i.id f).lawful := by
  have one (x : Item) (hx : x ∈ r.items) : (if x.id = i.id then f x else x) = if x.id = i.id then f i else x := by
    split
    · next he => rw [eq_of_id h.2.1 hx hi he]
    · rfl
  have hq : (r.mapItem i.id f).items = r.items.map fun x => if x.id = i.id then f i else x := List.map_congr_left one
  have stat (x : Item) (hx : x ∈ r.items) : (if x.id = i.id then f i else x).status = x.status := by
    split
    · next he => rw [hst, eq_of_id h.2.1 hx hi he]
    · rfl
  refine Replica.lawful_map h hq ?_ ?_ ?_ ?_ ?_
  · intro x; split
    · next he => rw [hid, he]
    · rfl
  · intro x hx; split
    · exact hl
    · exact h.2.2.2.1 x hx
  · rw [Replica.cueCount_eq] at hc
    have hp := filter_perm h.2.1 hi
    have hp' := hp.map fun x => if x.id = i.id then f i else x
    have e1 := cuesOf_perm hp
    have e2 := cuesOf_perm hp'
    have e3 : (r.items.filter fun x => decide (x.id ≠ i.id)).map (fun x => if x.id = i.id then f i else x) =
        r.items.filter fun x => decide (x.id ≠ i.id) := by
      refine (List.map_congr_left fun x hx => ?_).trans (List.map_id _)
      have : x.id ≠ i.id := by simpa using (List.mem_filter.mp hx).2
      simp [this]
    rw [← e2]
    simp only [List.map_cons, e3, if_true]
    simp only [cuesOf, List.map_cons, List.sum_cons] at e1 hc ⊢
    omega
  · intro x hx y hy px py
    rw [stat x hx] at px
    rw [stat y hy] at py
    exact h.2.2.2.2.1 x hx y hy px py
  · intro x hx y hy px py
    rw [stat x hx] at px
    rw [stat y hy] at py
    exact h.2.2.2.2.2 x hx y hy px py

theorem Replica.amend_lawful (h : r.lawful) {id : ItemId} {slug : Option (List Byte)} {planned : Option (BitVec 24)}
    {short : Option (Option (BitVec 24))} {flags : Option Byte} {q : Replica}
    (he : r.amend id slug planned short flags = .ok q) : q.lawful := by
  unfold Replica.amend at he
  obtain ⟨-, he⟩ := passed he
  split at he
  · cases he
  next i hi =>
    cases he
    obtain ⟨hm, rfl⟩ := Replica.item_mem (Replica.unlocked_item hi).1
    have k : (i.amend slug planned short flags).id = i.id ∧ (i.amend slug planned short flags).status = i.status ∧
        (i.amend slug planned short flags).cues = i.cues := by
      unfold Item.amend
      cases flags <;> exact ⟨rfl, rfl, rfl⟩
    refine Replica.mapItem_lawful h hm k.1 k.2.1 ?_ ?_
    · unfold Item.lawful; rw [k.2.2]; exact h.2.2.2.1 i hm
    · rw [k.2.2]; have := h.2.2.1; omega

theorem Replica.addCue_lawful (h : r.lawful) {id : ItemId} {raw : List Byte} {q : Replica} (he : r.addCue id raw = .ok q) :
    q.lawful := by
  unfold Replica.addCue at he
  split at he
  · cases he
  next c _ =>
    split at he
    · cases he
    next i hi =>
      obtain ⟨hlen, he⟩ := passed he
      obtain ⟨hslot, he⟩ := passed he
      obtain ⟨hcount, he⟩ := passed he
      cases he
      obtain ⟨hm, rfl⟩ := Replica.item_mem (Replica.unlocked_item hi).1
      have hl := h.2.2.2.1 i hm
      simp only [List.any_eq_true, decide_eq_true_eq, not_exists, not_and] at hslot
      refine Replica.mapItem_lawful h hm rfl rfl ⟨?_, insertCue_ascends hl.2 hslot⟩ ?_ <;> simp only [insertCue_length] <;> omega

theorem Replica.dropCue_lawful (h : r.lawful) {id : ItemId} {slot : Byte} {q : Replica} (he : r.dropCue id slot = .ok q) :
    q.lawful := by
  unfold Replica.dropCue at he
  repeat' split at he
  all_goals first
    | (cases he; done)
    | skip
  next i hi _ =>
    cases he
    obtain ⟨hm, rfl⟩ := Replica.item_mem (Replica.unlocked_item hi).1
    have hl := h.2.2.2.1 i hm
    have hs : (i.cues.filter fun x => decide (x.slot.val ≠ slot.toNat)).Sublist i.cues := List.filter_sublist
    have := h.2.2.1
    have := hs.length_le
    refine Replica.mapItem_lawful (f := fun i => { i with cues := i.cues.filter fun x => decide (x.slot.val ≠ slot.toNat) })
      h hm rfl rfl ⟨Nat.le_trans hs.length_le hl.1, ?_⟩ (by simp only; omega)
    rw [slotsAscend_iff]
    exact (slotsAscend_iff.mp hl.2).sublist hs

/-! ## Statuses (R39, R43 to R48) -/

/-- Statuses changed, of which none becomes ON_AIR or STANDING_BY beside another. -/
theorem Replica.lawful_statuses {q : Replica} (h : r.lawful) {g : Item → ItemStatus}
    (hq : q.items = r.items.map fun i => { i with status := g i })
    (ha : ∀ i ∈ r.items, ∀ j ∈ r.items, (g i).isOnAir = true → (g j).isOnAir = true → i.id = j.id)
    (hs : ∀ i ∈ r.items, ∀ j ∈ r.items, g i = .standingBy → g j = .standingBy → i.id = j.id) : q.lawful := by
  refine Replica.lawful_map h hq (fun _ => rfl) (fun i hi => h.2.2.2.1 i hi) ?_ ha hs
  have := h.2.2.1
  rw [Replica.cueCount_eq] at this
  simpa only [cuesOf, List.map_map, Function.comp_def] using this

theorem Replica.setStatus_items (id : ItemId) (st : ItemStatus) :
    (r.setStatus id st).items = r.items.map fun i => { i with status := if i.id = id then st else i.status } := by
  refine List.map_congr_left fun i _ => ?_
  simp only
  split <;> rfl

theorem Replica.setStatus_lawful (h : r.lawful) {id : ItemId} {st : ItemStatus}
    (ha : st.isOnAir = true → ∀ j ∈ r.items, j.status.isOnAir = true → j.id = id)
    (hs : st = .standingBy → ∀ j ∈ r.items, j.status = .standingBy → j.id = id) : (r.setStatus id st).lawful := by
  refine Replica.lawful_statuses h (Replica.setStatus_items id st) ?_ ?_
  · intro i hi j hj pi pj
    split at pi <;> split at pj
    · next e e' => exact e.trans e'.symm
    · next e _ => exact e.trans (ha pi j hj pj).symm
    · next _ e => exact (ha pj i hi pi).trans e.symm
    · exact h.2.2.2.2.1 i hi j hj pi pj
  · intro i hi j hj pi pj
    split at pi <;> split at pj
    · next e e' => exact e.trans e'.symm
    · next e _ => exact e.trans (hs pi j hj pj).symm
    · next _ e => exact (hs pj i hi pi).trans e.symm
    · exact h.2.2.2.2.2 i hi j hj pi pj

/-- A status that is neither. -/
theorem Replica.setStatus_other (h : r.lawful) {id : ItemId} {st : ItemStatus} (ha : st.isOnAir = false)
    (hs : st ≠ .standingBy) : (r.setStatus id st).lawful :=
  Replica.setStatus_lawful h (fun e => absurd e (by simp [ha])) fun e => absurd e hs

theorem Replica.revive_lawful (h : r.lawful) {id : ItemId} {q : Replica} (he : r.revive id = .ok q) : q.lawful := by
  unfold Replica.revive at he
  split at he <;> cases he
  exact Replica.setStatus_other h rfl (by simp)

theorem Replica.standDown_items (id : ItemId) :
    (r.standDown id).items =
      r.items.map fun i => { i with status := if i.status = .standingBy ∧ i.id ≠ id then .pending else i.status } := by
  refine List.map_congr_left fun i _ => ?_
  split <;> rfl

theorem Replica.standDown_lawful (h : r.lawful) (id : ItemId) : (r.standDown id).lawful := by
  refine Replica.lawful_statuses h (Replica.standDown_items id) ?_ ?_
  · intro i hi j hj pi pj
    split at pi
    · cases pi
    · split at pj
      · cases pj
      · exact h.2.2.2.2.1 i hi j hj pi pj
  · intro i hi j hj pi pj
    split at pi
    · cases pi
    · split at pj
      · cases pj
      · exact h.2.2.2.2.2 i hi j hj pi pj

/-- Only the item of this id may still be STANDING_BY. -/
theorem Replica.standDown_standingBy {id : ItemId} {j : Item} (hj : j ∈ (r.standDown id).items) (hs : j.status = .standingBy) :
    j.id = id := by
  rw [Replica.standDown_items, List.mem_map] at hj
  obtain ⟨i, -, rfl⟩ := hj
  simp only at hs
  split at hs
  · cases hs
  · next k => exact Decidable.byContradiction fun hn => k ⟨hs, hn⟩

/-- None comes to be ON_AIR. -/
theorem Replica.standDown_onAir {id : ItemId} {j : Item} (hj : j ∈ (r.standDown id).items) (ha : j.status.isOnAir = true) :
    ∃ i ∈ r.items, i.status.isOnAir = true := by
  rw [Replica.standDown_items, List.mem_map] at hj
  obtain ⟨i, hi, rfl⟩ := hj
  simp only at ha
  split at ha
  · cases ha
  · exact ⟨i, hi, ha⟩

theorem onAirItem_some {i : Item} {a : Airing} (h : onAirItem r = some (i, a)) : i ∈ r.items ∧ i.status = .onAir a := by
  unfold onAirItem at h
  obtain ⟨j, hj, he⟩ := List.exists_of_findSome?_eq_some h
  split at he
  · next hs => cases he; exact ⟨hj, hs⟩
  all_goals cases he

theorem onAirItem_none (h : onAirItem r = none) {j : Item} (hj : j ∈ r.items) : j.status.isOnAir = false := by
  unfold onAirItem at h
  have := List.findSome?_eq_none_iff.mp h j hj
  unfold ItemStatus.isOnAir
  split at this
  · cases this
  all_goals simp_all

theorem Airing.finish_status (a : Airing) (f : Frame) : (a.finish f).isOnAir = false ∧ a.finish f ≠ .standingBy :=
  ⟨rfl, by simp [Airing.finish]⟩

theorem Replica.endOnAir_lawful (h : r.lawful) (f : Frame) : (r.endOnAir f).lawful := by
  unfold Replica.endOnAir
  split
  · exact Replica.setStatus_other h (Airing.finish_status _ f).1 (Airing.finish_status _ f).2
  · exact h

/-- No item is ON_AIR once the one that was has ended. -/
theorem Replica.endOnAir_onAir (h : r.lawful) (f : Frame) {j : Item} (hj : j ∈ (r.endOnAir f).items) :
    j.status.isOnAir = false := by
  unfold Replica.endOnAir at hj
  split at hj
  · next i a hi =>
    obtain ⟨hm, hs⟩ := onAirItem_some hi
    rw [Replica.setStatus_items, List.mem_map] at hj
    obtain ⟨x, hx, rfl⟩ := hj
    simp only
    split
    · rfl
    · next hne =>
      cases hb : x.status.isOnAir with
      | false => rfl
      | true => exact absurd (h.2.2.2.2.1 x hx i hm hb (by rw [hs]; rfl)) hne
  · next hn => exact onAirItem_none hn hj

/-- A lawful replica stays so under an air message (R43 to R48). -/
theorem Replica.air_lawful (h : r.lawful) {m : AirMsg} {q : Replica} (he : r.air m = .ok q) : q.lawful := by
  have again {i : Item} {a b : Airing} (hi : onAirItem r = some (i, a)) : (r.setStatus i.id (.onAir b)).lawful := by
    obtain ⟨hm, hs⟩ := onAirItem_some hi
    exact Replica.setStatus_lawful h (fun _ j hj hb => h.2.2.2.2.1 j hj i hm hb (by rw [hs]; rfl)) fun e => by cases e
  cases m <;> simp only [Replica.air] at he <;> split at he
  all_goals first
    | (cases he; done)
    | skip
  · obtain ⟨-, he⟩ := passed he
    cases he
    exact Replica.setStatus_lawful (Replica.standDown_lawful h _) (fun e => by cases e) fun _ j hj hs =>
      Replica.standDown_standingBy hj hs
  · obtain ⟨-, he⟩ := passed he
    obtain ⟨-, he⟩ := passed he
    cases he
    refine Replica.setStatus_lawful (Replica.standDown_lawful (Replica.endOnAir_lawful h _) _) (fun _ j hj hb => ?_)
      fun e => by cases e
    obtain ⟨i, hi, hb⟩ := Replica.standDown_onAir hj hb
    rw [Replica.endOnAir_onAir h _ hi] at hb
    cases hb
  · next hi =>
    obtain ⟨-, he⟩ := passed he
    obtain ⟨-, he⟩ := passed he
    cases he
    exact again hi
  · next hi =>
    split at he
    · cases he
    · cases he
      exact again hi
  · obtain ⟨-, he⟩ := passed he
    cases he
    exact Replica.setStatus_other h rfl (by simp)
  · obtain ⟨-, he⟩ := passed he
    cases he
    exact Replica.endOnAir_lawful h _

/-! ## Parts of a snapshot (R16, R172) -/

theorem readItem_ascends {bs : List Byte} {i : Item} (h : readItem bs = some i) : slotsAscend i.cues = true := by
  unfold readItem at h
  iterate 13 obtain ⟨⟨_, _⟩, -, h⟩ := Option.bind_eq_some_iff.mp h
  iterate 2 obtain ⟨_, -, h⟩ := Option.bind_eq_some_iff.mp h
  split at h
  · next hc => cases h; exact hc.2.2.2.2.2
  · cases h

theorem readPart1_items {bs : List Byte} {x : Replica × Nat} (h : readPart1 bs = some x) : x.1.items = [] := by
  simp only [readPart1, Option.bind_eq_bind, Option.bind_eq_some_iff, Prod.exists] at h
  repeat obtain ⟨_, h⟩ := h
  split at h <;> cases h
  rfl

/-- What a part makes of a lawful SHADOW is lawful. -/
theorem Replica.writePart_lawful (h : r.lawful) {k : Nat} {content : List Byte} {q : Replica}
    (he : r.writePart k content = some q) : q.lawful := by
  unfold Replica.writePart at he
  split at he
  · obtain ⟨x, hx, rfl⟩ := Option.map_eq_some_iff.mp he
    exact Replica.lawful_items Replica.lawful_empty (readPart1_items hx)
  · split at he
    · cases he
    · next i hi =>
      simp only at he
      split at he
      · next hc =>
        cases he
        obtain ⟨hn, hair, hstand, hcues, hlen⟩ := hc
        have hp : (r.items ++ [i]).Perm (i :: r.items) := List.perm_append_singleton _ _
        have hi' := readItem_ascends hi
        have hid : ∀ j ∈ r.items, j.id ≠ i.id := fun j hj he => by
          rw [Replica.has_iff.mpr ⟨j, hj, he⟩] at hn
          cases hn
        have last : i ∈ r.items ++ [i] := by simp
        refine Replica.lawful_cons h hp ?_ (by simpa using hn) ?_ ⟨slots_le hi', hi'⟩ ?_ ?_
        · simp only [List.length_append, List.length_singleton] at hlen; omega
        · rw [Replica.cueCount_eq, cuesOf_perm hp] at hcues
          rw [Replica.cueCount_eq]
          simp only [cuesOf, List.map_cons, List.sum_cons] at hcues ⊢
          omega
        · intro ha j hj
          cases hb : j.status.isOnAir with
          | false => rfl
          | true =>
            refine absurd (congrArg (·.id) (countP_one hair (List.mem_append_left _ hj) last ?_ ?_)) (hid j hj)
            · revert hb; cases j.status <;> simp [ItemStatus.isOnAir]
            · revert ha; cases i.status <;> simp [ItemStatus.isOnAir]
        · intro hs j hj hb
          exact hid j hj (congrArg (·.id) (countP_one hstand (List.mem_append_left _ hj) last (by simpa using hb) (by simpa using hs)))
      · cases he

/-- A lawful replica stays so under an operation (R31). -/
theorem Replica.operate_lawful (h : r.lawful) {op : RawOp} {q : Replica} (he : r.operate op = .ok q) : q.lawful := by
  cases op <;> simp only [Replica.operate] at he
  · exact Replica.insert_lawful h he
  · exact Replica.delete_lawful h he
  · exact Replica.move_lawful h he
  · exact Replica.amend_lawful h he
  · exact Replica.addCue_lawful h he
  · exact Replica.dropCue_lawful h he
  · cases he; exact Replica.lawful_items h rfl
  · exact Replica.revive_lawful h he

/-! ## Operations over the station off the store and the apply engine -/

variable {s t : State} {st : Store}

theorem State.lawful_congr (hs : t.store = s.store) (ha : t.apply = s.apply) : t.lawful ↔ s.lawful := by
  unfold State.lawful
  rw [hs, ha]

/-- The store part of a frame leaves LIVE out, so both are named. -/
theorem State.lawful_same (ps : List Part) (h : SameBut ps s t := by simp) (hs : Part.store ∉ ps := by decide)
    (ha : Part.apply ∉ ps := by decide) : t.lawful ↔ s.lawful := State.lawful_congr (h .store hs) (h .apply ha)

@[simp] theorem State.lawful_choice {c : Prop} [Decidable c] :
    (if c then s else t).lawful ↔ (c → s.lawful) ∧ (¬c → t.lawful) := by
  split <;> simp [*]

theorem State.foldl_lawful {α : Type} {f : State → α → State} (hf : ∀ s a, s.lawful → (f s a).lawful) (l : List α)
    (h : s.lawful) : (l.foldl f s).lawful := by
  induction l generalizing s with
  | nil => exact h
  | cons a l ih => exact ih (hf s a h)

/-! The arbiter moves no bank. -/

@[simp] theorem Store.setWaiting_shadow (c : Client) (w : Option StoreOp) : (st.setWaiting c w).shadow = st.shadow := by
  cases c <;> rfl
@[simp] theorem Store.grantNext_shadow : st.grantNext.shadow = st.shadow := by unfold Store.grantNext; split <;> rfl
@[simp] theorem Store.request_shadow (op : StoreOp) : (st.request op).shadow = st.shadow := by
  unfold Store.request; split <;> simp [Store.start]
@[simp] theorem Store.release_shadow : st.release.shadow = st.shadow := by simp [Store.release]
@[simp] theorem Store.abandon_shadow (c : Client) : (st.abandon c).shadow = st.shadow := by
  unfold Store.abandon; simp only; repeat' split
  all_goals simp
@[simp] theorem Store.abandonFreeze_shadow : st.abandonFreeze.shadow = st.shadow := rfl
@[simp] theorem Store.emptyShadow_shadow : st.emptyShadow.shadow = .empty := rfl

@[simp] theorem State.modTb_lawful (f : Timebase → Timebase) : (s.modTb f).lawful ↔ s.lawful :=
  State.lawful_same [.tb, .counter]
@[simp] theorem State.modSched_lawful (f : Scheduler → Scheduler) : (s.modSched f).lawful ↔ s.lawful :=
  State.lawful_same [.sched]
@[simp] theorem State.modOut_lawful (f : Output → Output) : (s.modOut f).lawful ↔ s.lawful :=
  State.lawful_same [.out]
@[simp] theorem State.modTiming_lawful (f : Timing → Timing) : (s.modTiming f).lawful ↔ s.lawful :=
  State.lawful_same [.timing]
@[simp] theorem State.modLine_lawful (f : Line → Line) : (s.modLine f).lawful ↔ s.lawful :=
  State.lawful_same [.line]
@[simp] theorem State.modRoster_lawful (f : Roster → Roster) : (s.modRoster f).lawful ↔ s.lawful :=
  State.lawful_same [.roster]
@[simp] theorem State.modSync_lawful (f : Sync → Sync) : (s.modSync f).lawful ↔ s.lawful :=
  State.lawful_same [.sync]
@[simp] theorem State.modPair_lawful (f : Pair → Pair) : (s.modPair f).lawful ↔ s.lawful :=
  State.lawful_same [.pair]
@[simp] theorem State.modPort_lawful (f : Port → Port) : (s.modPort f).lawful ↔ s.lawful :=
  State.lawful_same [.port]
@[simp] theorem State.elapse_lawful (d : Nat) : (s.elapse d).lawful ↔ s.lawful :=
  State.lawful_same [.clock]
@[simp] theorem State.emit_lawful (f : Env → Emit → Emit) : (s.emit f).lawful ↔ s.lawful :=
  State.lawful_same [.sched, .out, .port]
@[simp] theorem State.post_lawful (n : Notice) : (s.post n).lawful ↔ s.lawful :=
  State.lawful_same [.port]
@[simp] theorem State.postAll_lawful (l : List Notice) : (s.postAll l).lawful ↔ s.lawful :=
  State.lawful_same [.port]
@[simp] theorem State.arbitrate_lawful : s.arbitrate.lawful ↔ s.lawful :=
  State.lawful_same [.line]
@[simp] theorem State.enqueue_lawful (m : OutMsg) : (s.enqueue m).lawful ↔ s.lawful :=
  State.lawful_same [.line]
@[simp] theorem State.withdraw_lawful (p : OutMsg → Bool) : (s.withdraw p).lawful ↔ s.lawful :=
  State.lawful_same [.line]
@[simp] theorem State.sendFailed_lawful (m : OutMsg) (r : FailReason) : (s.sendFailed m r).lawful ↔ s.lawful :=
  State.lawful_same [.port]
@[simp] theorem State.sendFailedAll_lawful (l : List OutMsg) (r : FailReason) : (s.sendFailedAll l r).lawful ↔ s.lawful :=
  State.lawful_same [.port]
@[simp] theorem State.takeLights_lawful : s.takeLights.lawful ↔ s.lawful :=
  State.lawful_same [.out]
@[simp] theorem State.followLights_lawful : s.followLights.lawful ↔ s.lawful :=
  State.lawful_same [.out]
@[simp] theorem State.pipsStart_lawful : s.pipsStart.lawful ↔ s.lawful :=
  State.lawful_same [.out]
@[simp] theorem State.pipsStop_lawful : s.pipsStop.lawful ↔ s.lawful :=
  State.lawful_same [.out]
@[simp] theorem State.press_lawful (i : Fin 4) : (s.press i).lawful ↔ s.lawful :=
  State.lawful_same [.line, .port]
@[simp] theorem State.sample_lawful (p : Vector Bool 4) : (s.sample p).lawful ↔ s.lawful :=
  State.lawful_same [.out, .line, .port]
@[simp] theorem State.outputPulse_lawful (p : Vector Bool 4) : (s.outputPulse p).lawful ↔ s.lawful :=
  State.lawful_same [.out, .line, .port]
@[simp] theorem State.reclaim_lawful : s.reclaim.lawful ↔ s.lawful :=
  State.lawful_same [.timing]
@[simp] theorem State.postTiming_lawful (i : Item) (b : Bool) : (s.postTiming i b).lawful ↔ s.lawful :=
  State.lawful_same [.port]
@[simp] theorem State.computeBacktime_lawful (b : Bool) : (s.computeBacktime b).lawful ↔ s.lawful :=
  State.lawful_same [.timing, .port]
@[simp] theorem State.timingPulse_lawful : s.timingPulse.lawful ↔ s.lawful :=
  State.lawful_same [.timing, .port]
@[simp] theorem State.projectionDone_lawful : s.projectionDone.lawful ↔ s.lawful :=
  State.lawful_same [.timing, .port]
@[simp] theorem State.postRole_lawful (r : Role) (c : RoleCause) : (s.postRole r c).lawful ↔ s.lawful :=
  State.lawful_same [.port]
@[simp] theorem State.becomeStandby_lawful (c : RoleCause) : (s.becomeStandby c).lawful ↔ s.lawful :=
  State.lawful_same [.port, .pair, .sched]
@[simp] theorem State.block_lawful (c : RoleCause) : (s.block c).lawful ↔ s.lawful :=
  State.lawful_same [.pair, .port]
@[simp] theorem State.resolveDoubled_lawful (c : Presence) : (s.resolveDoubled c).lawful ↔ s.lawful :=
  State.lawful_same [.port, .pair, .sched]
@[simp] theorem State.yieldSent_lawful : s.yieldSent.lawful ↔ s.lawful :=
  State.lawful_same [.pair]
@[simp] theorem State.yieldLost_lawful : s.yieldLost.lawful ↔ s.lawful :=
  State.lawful_same [.pair]
@[simp] theorem State.yieldExpire_lawful : s.yieldExpire.lawful ↔ s.lawful :=
  State.lawful_same [.pair, .port]
@[simp] theorem State.pairPulse_lawful : s.pairPulse.lawful ↔ s.lawful :=
  State.lawful_same [.pair, .port]
@[simp] theorem State.startRound_lawful : s.startRound.lawful ↔ s.lawful :=
  State.lawful_same [.sync]
@[simp] theorem State.streamEnd_lawful : s.streamEnd.lawful ↔ s.lawful :=
  State.lawful_same [.sync]
@[simp] theorem State.setStep_lawful (n : StepState) (c : StepCause) : (s.setStep n c).lawful ↔ s.lawful :=
  State.lawful_same [.sync, .port]
@[simp] theorem State.askAgain_lawful : s.askAgain.lawful ↔ s.lawful :=
  State.lawful_same [.line, .sync]
@[simp] theorem State.askSent_lawful : s.askSent.lawful ↔ s.lawful :=
  State.lawful_same [.sync]
@[simp] theorem State.askHeard_lawful (n : StationNo) : (s.askHeard n).lawful ↔ s.lawful :=
  State.lawful_same [.sync]
@[simp] theorem State.responseExpire_lawful : s.responseExpire.lawful ↔ s.lawful :=
  State.lawful_same [.line, .sync]
@[simp] theorem State.cancelRound_lawful : s.cancelRound.lawful ↔ s.lawful :=
  State.lawful_same [.sync, .line]
@[simp] theorem State.postLock_lawful (c : LockCause) (a : Option LockCause) (d : Word) (n : Option StationNo) :
    (s.postLock c a d n).lawful ↔ s.lawful :=
  State.lawful_same [.port]
@[simp] theorem State.afterCorrection_lawful : s.afterCorrection.lawful ↔ s.lawful :=
  State.lawful_same [.sched, .out, .port, .timing]
@[simp] theorem State.dropSource_lawful : s.dropSource.lawful ↔ s.lawful :=
  State.lawful_same [.tb, .line]
@[simp] theorem State.silenceExpire_lawful : s.silenceExpire.lawful ↔ s.lawful :=
  State.lawful_same [.tb, .port]
@[simp] theorem State.acquireExpire_lawful : s.acquireExpire.lawful ↔ s.lawful :=
  State.lawful_same [.tb, .port]
@[simp] theorem State.markDue_lawful : s.markDue.lawful ↔ s.lawful :=
  State.lawful_same [.line]
@[simp] theorem State.timebaseMuted_lawful : s.timebaseMuted.lawful ↔ s.lawful :=
  State.lawful_same [.tb, .line, .port]
@[simp] theorem State.postPeer_lawful (n : StationNo) : (s.postPeer n).lawful ↔ s.lawful :=
  State.lawful_same [.port]
@[simp] theorem State.linePulse_lawful : s.linePulse.lawful ↔ s.lawful :=
  State.lawful_same [.line]
@[simp] theorem State.raise_lawful : s.raise.lawful ↔ s.lawful :=
  State.lawful_same [.tb, .counter]
@[simp] theorem State.watch_lawful : s.watch.lawful ↔ s.lawful :=
  State.lawful_same [.tb]
@[simp] theorem State.leaveFlight_lawful (c : TxClass) : (s.leaveFlight c).lawful ↔ s.lawful :=
  State.lawful_same [.line]
@[simp] theorem State.rxOver_lawful : s.rxOver.lawful ↔ s.lawful :=
  State.lawful_same [.line]
@[simp] theorem State.count_lawful (f : LineRecord → LineRecord) : (s.count f).lawful ↔ s.lawful :=
  State.lawful_same [.line]
@[simp] theorem State.editDone_lawful (m : EditMsg) (r : Result) (i : Nat) (l : List ItemId) : (s.editDone m r i
    l).lawful ↔ s.lawful :=
  State.lawful_same [.port]
@[simp] theorem State.reportScheduler_lawful (m : AirMsg) (o n : Replica) : (s.reportScheduler m o n).lawful ↔ s.lawful :=
  State.lawful_same [.sched, .out, .port]
@[simp] theorem State.wholeTransfer_lawful (f : Port → Port) : (s.wholeTransfer f).lawful ↔ s.lawful :=
  State.lawful_same [.port]
@[simp] theorem State.beginTransfer_lawful (f : Port → Port) : (s.beginTransfer f).lawful ↔ s.lawful :=
  State.lawful_same [.port]
@[simp] theorem State.endTransfer_lawful (b : Byte) (f : Port → Port) : (s.endTransfer b f).lawful ↔ s.lawful :=
  State.lawful_same [.port]
@[simp] theorem State.requestDone_lawful : s.requestDone.lawful ↔ s.lawful :=
  State.lawful_same [.port]
@[simp] theorem State.refuse_lawful (k : Option ReqKind) (r : RefuseReason) (d : RefuseDetail) : (s.refuse k r
    d).lawful ↔ s.lawful :=
  State.lawful_same [.port]
@[simp] theorem State.offer_lawful (k : ReqKind) (d : RefuseDetail) (m : OutMsg) : (s.offer k d m).lawful ↔ s.lawful :=
  State.lawful_same [.line, .port]
@[simp] theorem State.airRequest_lawful (k : ReqKind) (d : RefuseDetail) (l : List (Bool × RefuseReason)) (m :
   
    Option AirMsg) : (s.airRequest k d l m).lawful ↔ s.lawful :=
  State.lawful_same [.line, .port]
@[simp] theorem State.yieldOffer_lawful : s.yieldOffer.lawful ↔ s.lawful :=
  State.lawful_same [.line, .pair, .port]

/-! ## Operations on the store and the apply engine -/

/-- Both banks stay. -/
@[simp] theorem State.modStore_lawful (h : s.lawful) {f : Store → Store} (hl : (f s.store).live = s.store.live)
    (hs : (f s.store).shadow = s.store.shadow) : (s.modStore f).lawful :=
  ⟨⟨hl ▸ h.1.1, hs ▸ h.1.2⟩, h.2⟩

/-- LIVE stays, and SHADOW takes the empty replica. -/
@[simp] theorem State.modStore_empties (h : s.lawful) {f : Store → Store} (hl : (f s.store).live = s.store.live)
    (hs : (f s.store).shadow = .empty) : (s.modStore f).lawful :=
  ⟨⟨hl ▸ h.1.1, hs ▸ Replica.lawful_empty⟩, h.2⟩

/-- SHADOW takes LIVE. -/
@[simp] theorem State.modStore_copies (h : s.lawful) {f : Store → Store} (hl : (f s.store).live = s.store.live)
    (hs : (f s.store).shadow = s.store.live) : (s.modStore f).lawful :=
  ⟨⟨hl ▸ h.1.1, hs ▸ h.1.1⟩, h.2⟩

/-- LIVE takes SHADOW, which empties. -/
@[simp] theorem State.modStore_swaps (h : s.lawful) {f : Store → Store} (hl : (f s.store).live = s.store.shadow)
    (hs : (f s.store).shadow = .empty) : (s.modStore f).lawful :=
  ⟨⟨hl ▸ h.1.2, hs ▸ Replica.lawful_empty⟩, h.2⟩

@[simp] theorem State.modApply_lawful (h : s.lawful) {f : ApplyEngine → ApplyEngine} (hb : (f s.apply).batch = s.apply.batch) :
    (s.modApply f).lawful :=
  ⟨h.1, fun b e => h.2 b (hb ▸ e)⟩

/-- The batch in hand goes. -/
@[simp] theorem State.modApply_none (h : s.lawful) {f : ApplyEngine → ApplyEngine} (hb : (f s.apply).batch = none) :
    (s.modApply f).lawful :=
  ⟨h.1, fun b e => by rw [show (s.modApply f).apply.batch = none from hb] at e; cases e⟩

@[simp] theorem State.request_lawful (h : s.lawful) (op : StoreOp) : (s.request op).lawful := by
  simp only [State.request]
  simp -implicitDefEqProofs (maxDischargeDepth := 40) [*]

@[simp] theorem State.release_lawful (h : s.lawful) : s.release.lawful := by
  simp only [State.release]
  simp -implicitDefEqProofs (maxDischargeDepth := 40) [*]

@[simp] theorem State.wantProjection_lawful (h : s.lawful) : s.wantProjection.lawful := by
  simp only [State.wantProjection]
  repeat' split
  all_goals simp -implicitDefEqProofs (maxDischargeDepth := 40) [*]

@[simp] theorem State.timingAdopted_lawful (h : s.lawful) : s.timingAdopted.lawful := by
  simp only [State.timingAdopted]
  simp -implicitDefEqProofs (maxDischargeDepth := 40) [*]

@[simp] theorem State.wantReads_lawful (h : s.lawful) : s.wantReads.lawful := by
  simp only [State.wantReads]
  repeat' split
  all_goals simp -implicitDefEqProofs (maxDischargeDepth := 40) [*]

@[simp] theorem State.becomeActive_lawful (h : s.lawful) (c : RoleCause) : (s.becomeActive c).lawful := by
  simp only [State.becomeActive]
  simp -implicitDefEqProofs (maxDischargeDepth := 40) [*]

@[simp] theorem State.takeoverTest_lawful (h : s.lawful) : s.takeoverTest.lawful := by
  simp only [State.takeoverTest]
  repeat' split
  all_goals simp -implicitDefEqProofs (maxDischargeDepth := 40) [*]

@[simp] theorem State.fitnessChanged_lawful (h : s.lawful) : s.fitnessChanged.lawful := by
  simp only [State.fitnessChanged]
  simp -implicitDefEqProofs (maxDischargeDepth := 40) [*]

@[simp] theorem State.usabilityChanged_lawful (h : s.lawful) : s.usabilityChanged.lawful := by
  simp only [State.usabilityChanged]
  repeat' split
  all_goals simp -implicitDefEqProofs (maxDischargeDepth := 40) [*]

@[simp] theorem State.partnerHeard_lawful (h : s.lawful) (c : Presence) : (s.partnerHeard c).lawful := by
  simp only [State.partnerHeard]
  repeat' split
  all_goals simp -implicitDefEqProofs (maxDischargeDepth := 40) [*]

@[simp] theorem State.partnerLost_lawful (h : s.lawful) : s.partnerLost.lawful := by
  simp only [State.partnerLost]
  simp -implicitDefEqProofs (maxDischargeDepth := 40) [*]

@[simp] theorem State.yieldHeard_lawful (h : s.lawful) (n : StationNo) : (s.yieldHeard n).lawful := by
  simp only [State.yieldHeard]
  repeat' split
  all_goals simp -implicitDefEqProofs (maxDischargeDepth := 40) [*]

@[simp] theorem State.pairMuted_lawful (h : s.lawful) : s.pairMuted.lawful := by
  simp only [State.pairMuted]
  repeat' split
  all_goals simp -implicitDefEqProofs (maxDischargeDepth := 40) [*]

@[simp] theorem State.popQueue_lawful (h : s.lawful) : s.popQueue.lawful := by
  simp only [State.popQueue]
  simp -implicitDefEqProofs (maxDischargeDepth := 40) [*]

@[simp] theorem State.discardOrdered_lawful (h : s.lawful) : s.discardOrdered.lawful := by
  simp only [State.discardOrdered]
  repeat' split
  all_goals simp -implicitDefEqProofs (maxDischargeDepth := 40) [*]

@[simp] theorem State.kickFor_lawful (h : s.lawful) (n : Nat) : (s.kickFor n).lawful := by
  induction n generalizing s with
  | zero => exact h
  | succ n ih =>
    simp only [State.kickFor]
    repeat' split
    all_goals simp -implicitDefEqProofs (maxDischargeDepth := 40) [*]

@[simp] theorem State.kick_lawful (h : s.lawful) : s.kick.lawful := by
  simp only [State.kick]
  simp -implicitDefEqProofs (maxDischargeDepth := 40) [*]

@[simp] theorem State.abandonResponder_lawful (h : s.lawful) : s.abandonResponder.lawful := by
  simp only [State.abandonResponder]
  repeat' split
  all_goals simp -implicitDefEqProofs (maxDischargeDepth := 40) [*]

@[simp] theorem State.leaveInStep_lawful (h : s.lawful) (c : StepCause) : (s.leaveInStep c).lawful := by
  simp only [State.leaveInStep]
  repeat' split
  all_goals simp -implicitDefEqProofs (maxDischargeDepth := 40) [*]

@[simp] theorem State.enterInStep_lawful (h : s.lawful) (c : StepCause) : (s.enterInStep c).lawful := by
  simp only [State.enterInStep]
  simp -implicitDefEqProofs (maxDischargeDepth := 40) [*]

@[simp] theorem State.abandonCatchUp_lawful (h : s.lawful) (r : AbandonReason) : (s.abandonCatchUp r).lawful := by
  simp only [State.abandonCatchUp]
  simp -implicitDefEqProofs (maxDischargeDepth := 40) [*]

@[simp] theorem State.takeOrdered_lawful (h : s.lawful) (n : StationNo) (m : Ordered) : (s.takeOrdered n m).lawful := by
  simp only [State.takeOrdered]
  repeat' split
  all_goals simp -implicitDefEqProofs (maxDischargeDepth := 40) [*]

@[simp] theorem State.possibleLoss_lawful (h : s.lawful) : s.possibleLoss.lawful := by
  simp only [State.possibleLoss]
  repeat' split
  all_goals simp -implicitDefEqProofs (maxDischargeDepth := 40) [*]

@[simp] theorem State.partLost_lawful (h : s.lawful) (n : StationNo) : (s.partLost n).lawful := by
  simp only [State.partLost]
  repeat' split
  all_goals simp -implicitDefEqProofs (maxDischargeDepth := 40) [*]

@[simp] theorem State.syncHeard_lawful (h : s.lawful) (c : Presence) : (s.syncHeard c).lawful := by
  simp only [State.syncHeard]
  repeat' split
  all_goals simp -implicitDefEqProofs (maxDischargeDepth := 40) [*]

@[simp] theorem State.found_lawful (h : s.lawful) : s.found.lawful := by
  simp only [State.found]
  repeat' split
  all_goals simp -implicitDefEqProofs (maxDischargeDepth := 40) [*]

@[simp] theorem State.askFirst_lawful (h : s.lawful) : s.askFirst.lawful := by
  simp only [State.askFirst]
  repeat' split
  all_goals simp -implicitDefEqProofs (maxDischargeDepth := 40) [*]

@[simp] theorem State.askRetryExpire_lawful (h : s.lawful) : s.askRetryExpire.lawful := by
  simp only [State.askRetryExpire]
  repeat' split
  all_goals simp -implicitDefEqProofs (maxDischargeDepth := 40) [*]

@[simp] theorem State.askLost_lawful (h : s.lawful) : s.askLost.lawful := by
  simp only [State.askLost]
  repeat' split
  all_goals simp -implicitDefEqProofs (maxDischargeDepth := 40) [*]

@[simp] theorem State.openingSent_lawful (h : s.lawful) (w : Bool) : (s.openingSent w).lawful := by
  simp only [State.openingSent]
  repeat' split
  all_goals simp -implicitDefEqProofs (maxDischargeDepth := 40) [*]

@[simp] theorem State.readPart_lawful (h : s.lawful) : s.readPart.lawful := by
  simp only [State.readPart]
  repeat' split
  all_goals simp -implicitDefEqProofs (maxDischargeDepth := 40) [*]

@[simp] theorem State.partSent_lawful (h : s.lawful) (k : Nat) : (s.partSent k).lawful := by
  simp only [State.partSent]
  repeat' split
  all_goals simp -implicitDefEqProofs (maxDischargeDepth := 40) [*]

@[simp] theorem State.partGivenUp_lawful (h : s.lawful) (k : Nat) : (s.partGivenUp k).lawful := by
  simp only [State.partGivenUp]
  repeat' split
  all_goals simp -implicitDefEqProofs (maxDischargeDepth := 40) [*]

@[simp] theorem State.wantWrite_lawful (h : s.lawful) : s.wantWrite.lawful := by
  simp only [State.wantWrite]
  repeat' split
  all_goals simp -implicitDefEqProofs (maxDischargeDepth := 40) [*]

@[simp] theorem State.takeOpening_lawful (h : s.lawful) (n : StationNo) : (s.takeOpening n).lawful := by
  simp only [State.takeOpening]
  repeat' split
  all_goals simp -implicitDefEqProofs (maxDischargeDepth := 40) [*]

@[simp] theorem State.openingHeard_lawful (h : s.lawful) (n : StationNo) : (s.openingHeard n).lawful := by
  simp only [State.openingHeard]
  repeat' split
  all_goals simp -implicitDefEqProofs (maxDischargeDepth := 40) [*]

@[simp] theorem State.partHeard_lawful (h : s.lawful) (n : StationNo) (k : Nat) (c : List Byte) : (s.partHeard n k
    c).lawful := by
  simp only [State.partHeard]
  repeat' split
  all_goals simp -implicitDefEqProofs (maxDischargeDepth := 40) [*]

@[simp] theorem State.gapExpire_lawful (h : s.lawful) : s.gapExpire.lawful := by
  simp only [State.gapExpire]
  repeat' split
  all_goals simp -implicitDefEqProofs (maxDischargeDepth := 40) [*]

@[simp] theorem State.syncPulse_lawful (h : s.lawful) : s.syncPulse.lawful := by
  simp only [State.syncPulse]
  repeat' split
  all_goals simp -implicitDefEqProofs (maxDischargeDepth := 40) [*]

@[simp] theorem State.syncMuted_lawful (h : s.lawful) : s.syncMuted.lawful := by
  simp only [State.syncMuted]
  simp -implicitDefEqProofs (maxDischargeDepth := 40) [*]

@[simp] theorem State.reportUsability_lawful (h : s.lawful) (b : Bool) : (s.reportUsability b).lawful := by
  simp only [State.reportUsability]
  repeat' split
  all_goals simp -implicitDefEqProofs (maxDischargeDepth := 40) [*]

@[simp] theorem State.markHeard_lawful (h : s.lawful) (n : StationNo) (f : Frame) : (s.markHeard n f).lawful := by
  simp only [State.markHeard]
  repeat' split
  all_goals simp -implicitDefEqProofs (maxDischargeDepth := 40) [*]

@[simp] theorem State.holdoverExpire_lawful (h : s.lawful) : s.holdoverExpire.lawful := by
  simp only [State.holdoverExpire]
  repeat' split
  all_goals simp -implicitDefEqProofs (maxDischargeDepth := 40) [*]

@[simp] theorem State.elect_lawful (h : s.lawful) : s.elect.lawful := by
  simp only [State.elect]
  repeat' split
  all_goals simp -implicitDefEqProofs (maxDischargeDepth := 40) [*]

@[simp] theorem State.lockTimers_lawful (h : s.lawful) : s.lockTimers.lawful := by
  simp only [State.lockTimers]
  repeat' split
  all_goals simp -implicitDefEqProofs (maxDischargeDepth := 40) [*]

@[simp] theorem State.timebasePulse_lawful (h : s.lawful) : s.timebasePulse.lawful := by
  simp only [State.timebasePulse]
  repeat' split
  all_goals simp -implicitDefEqProofs (maxDischargeDepth := 40) [*]

@[simp] theorem State.peerExpire_lawful (h : s.lawful) (n : StationNo) : (s.peerExpire n).lawful := by
  simp only [State.peerExpire]
  repeat' split
  all_goals simp -implicitDefEqProofs (maxDischargeDepth := 40) [*]

@[simp] theorem State.peerPulse_lawful (h : s.lawful) (n : StationNo) : (s.peerPulse n).lawful := by
  simp only [State.peerPulse]
  repeat' split
  all_goals simp -implicitDefEqProofs (maxDischargeDepth := 40) [*]

@[simp] theorem State.rosterPulse_lawful (h : s.lawful) : s.rosterPulse.lawful :=
  State.foldl_lawful (fun t n ht => by simp -implicitDefEqProofs [ht]) _ h

@[simp] theorem State.presenceHeard_lawful (h : s.lawful) (n : StationNo) (p : List Byte) : (s.presenceHeard n
    p).lawful := by
  simp only [State.presenceHeard]
  repeat' split
  all_goals simp -implicitDefEqProofs (maxDischargeDepth := 40) [*]

@[simp] theorem State.blockPulse_lawful (h : s.lawful) (pressed : Vector Bool 4) (b : Block) :
    (State.blockPulse pressed s b).lawful := by
  cases b <;> simp -implicitDefEqProofs (maxDischargeDepth := 40) [State.blockPulse, *]

@[simp] theorem State.blocks_lawful (h : s.lawful) (p : Pulse) : (s.blocks p).lawful :=
  State.foldl_lawful (fun t b ht => by simp -implicitDefEqProofs [ht]) _ h

@[simp] theorem State.refReturned_lawful (h : s.lawful) (p : Pulse) : (s.refReturned p).lawful := by
  simp only [State.refReturned]
  repeat' split
  all_goals simp -implicitDefEqProofs (maxDischargeDepth := 40) [*]

@[simp] theorem State.loseRef_lawful (h : s.lawful) (p : Pulse) : (s.loseRef p).lawful := by
  simp only [State.loseRef]
  repeat' split
  all_goals simp -implicitDefEqProofs (maxDischargeDepth := 40) [*]

@[simp] theorem State.beginAttempt_lawful (h : s.lawful) (c : TxClass) (m : TxMsg) : (s.beginAttempt c m).lawful := by
  simp only [State.beginAttempt]
  repeat' split
  all_goals simp -implicitDefEqProofs (maxDischargeDepth := 40) [*]

@[simp] theorem State.tryAttempt_lawful (h : s.lawful) (n : Nat) : (s.tryAttempt n).lawful := by
  simp only [State.tryAttempt]
  repeat' split
  all_goals simp -implicitDefEqProofs (maxDischargeDepth := 40) [*]

@[simp] theorem State.endAttempt_lawful (h : s.lawful) (d : List Byte) : (s.endAttempt d).lawful := by
  simp only [State.endAttempt]
  simp -implicitDefEqProofs (maxDischargeDepth := 40) [*]

@[simp] theorem State.reportGiveUp_lawful (h : s.lawful) (m : OutMsg) : (s.reportGiveUp m).lawful := by
  simp only [State.reportGiveUp]
  repeat' split
  all_goals simp -implicitDefEqProofs (maxDischargeDepth := 40) [*]

@[simp] theorem State.collide_lawful (h : s.lawful) : s.collide.lawful := by
  simp only [State.collide]
  repeat' split
  all_goals simp -implicitDefEqProofs (maxDischargeDepth := 40) [*]

@[simp] theorem State.ownCopy_lawful (h : s.lawful) (m : Ordered) : (s.ownCopy m).lawful := by
  simp only [State.ownCopy]
  repeat' split
  all_goals simp -implicitDefEqProofs (maxDischargeDepth := 40) [*]

@[simp] theorem State.completed_lawful (h : s.lawful) (m : TxMsg) : (s.completed m).lawful := by
  simp only [State.completed]
  repeat' split
  all_goals simp -implicitDefEqProofs (maxDischargeDepth := 40) [*]

@[simp] theorem State.complete_lawful (h : s.lawful) : s.complete.lawful := by
  simp only [State.complete]
  repeat' split
  all_goals simp -implicitDefEqProofs (maxDischargeDepth := 40) [*]

@[simp] theorem State.mute_lawful (h : s.lawful) : s.mute.lawful := by
  simp only [State.mute]
  repeat' split
  all_goals simp -implicitDefEqProofs (maxDischargeDepth := 40) [*]

@[simp] theorem State.reject_lawful (h : s.lawful) (r : Reception) : (s.reject r).lawful := by
  simp only [State.reject]
  repeat' split
  all_goals simp -implicitDefEqProofs (maxDischargeDepth := 40) [*]

@[simp] theorem State.commit_lawful (h : s.lawful) {r : Replica} (hr : r.lawful) : (s.commit r).lawful := ⟨⟨hr, h.1.2⟩, h.2⟩

@[simp] theorem State.closeApply_lawful (h : s.lawful) : s.closeApply.lawful := by
  simp only [State.closeApply]
  simp -implicitDefEqProofs (maxDischargeDepth := 40) [*]

@[simp] theorem State.gapFound_lawful (h : s.lawful) (k : Kind) (w : Word) : (s.gapFound k w).lawful := by
  simp only [State.gapFound]
  simp -implicitDefEqProofs (maxDischargeDepth := 40) [*]

@[simp] theorem State.refuseEdit_lawful (h : s.lawful) (m : EditMsg) (r : Result) (i : Nat) : (s.refuseEdit m r
    i).lawful := by
  simp only [State.refuseEdit]
  simp -implicitDefEqProofs (maxDischargeDepth := 40) [*]

@[simp] theorem State.acceptEdit_lawful (h : s.lawful) (m : EditMsg) {b : Batch} (hb : b.work.lawful) :
    (s.acceptEdit m b).lawful := by
  simp only [State.acceptEdit]
  simp -implicitDefEqProofs (maxDischargeDepth := 40) [*]

/-- A batch from a lawful replica makes only lawful ones. -/
@[simp] theorem State.editNext_lawful (h : s.lawful) (row : RawOp → Bool) (m : EditMsg) {b : Batch} (hb : b.work.lawful) :
    (s.editNext row m b).lawful := by
  simp only [State.editNext]
  split
  · simp -implicitDefEqProofs [h]
  · split
    · simp -implicitDefEqProofs [h]
    · split
      · exact h
      · split
        · simp -implicitDefEqProofs [h]
        · next hr =>
          have k := Replica.operate_lawful hb hr
          split
          · exact State.acceptEdit_lawful h m k
          · exact ⟨h.1, fun b' e => by cases e; exact k⟩

@[simp] theorem State.applyEdit_lawful (h : s.lawful) (row : RawOp → Bool) : (s.applyEdit row).lawful := by
  simp only [State.applyEdit]
  split
  · split
    · next hb => exact State.editNext_lawful h row _ (h.2 _ hb)
    · repeat' split
      all_goals first
        | (simp -implicitDefEqProofs [h]; done)
        | exact State.editNext_lawful h row _ h.1.1
  · exact h

@[simp] theorem State.reportTiming_lawful (h : s.lawful) (m : AirMsg) (o n : Replica) : (s.reportTiming m o n).lawful := by
  simp only [State.reportTiming]
  repeat' split
  all_goals simp -implicitDefEqProofs (maxDischargeDepth := 40) [*]

@[simp] theorem State.applyAir_lawful (h : s.lawful) (row : AirMsg → Bool) : (s.applyAir row).lawful := by
  simp only [State.applyAir]
  split
  · split
    · exact h
    · split
      · simp -implicitDefEqProofs [h]
      · split
        · simp -implicitDefEqProofs [h]
        · next r hr =>
          have k := Replica.air_lawful h.1.1 hr
          simp -implicitDefEqProofs (maxDischargeDepth := 40) [*]
  · exact h

@[simp] theorem State.freezeDone_lawful (h : s.lawful) : s.freezeDone.lawful := by
  simp only [State.freezeDone]
  repeat' split
  all_goals simp -implicitDefEqProofs (maxDischargeDepth := 40) [*]

@[simp] theorem State.partReadDone_lawful (h : s.lawful) (k : Nat) : (s.partReadDone k).lawful := by
  simp only [State.partReadDone]
  repeat' split
  all_goals simp -implicitDefEqProofs (maxDischargeDepth := 40) [*]

@[simp] theorem State.partWriteDone_lawful (h : s.lawful) (k : Nat) (c : List Byte) : (s.partWriteDone k c).lawful := by
  simp only [State.partWriteDone]
  split
  · simp -implicitDefEqProofs [h]
  · split
    · simp -implicitDefEqProofs [h]
    · next r hr =>
      have k : (s.modStore fun st => { st with shadow := r }).lawful := ⟨⟨h.1.1, Replica.writePart_lawful h.1.2 hr⟩, h.2⟩
      split <;> simp -implicitDefEqProofs (maxDischargeDepth := 40) [*]

@[simp] theorem State.shadowCheckDone_lawful (h : s.lawful) : s.shadowCheckDone.lawful := by
  simp only [State.shadowCheckDone]
  repeat' split
  all_goals simp -implicitDefEqProofs (maxDischargeDepth := 40) [*]

@[simp] theorem State.swapDone_lawful (h : s.lawful) : s.swapDone.lawful := by
  simp only [State.swapDone]
  split <;> simp -implicitDefEqProofs (maxDischargeDepth := 40) [*]

@[simp] theorem State.propose_lawful (h : s.lawful) (f : List Byte) : (s.propose f).lawful := by
  simp only [State.propose]
  repeat' split
  all_goals simp -implicitDefEqProofs (maxDischargeDepth := 40) [*]

@[simp] theorem State.storeRead_lawful (h : s.lawful) (op : StoreOp) : (s.storeRead op).lawful := by
  simp only [State.storeRead]
  simp -implicitDefEqProofs (maxDischargeDepth := 40) [*]

end Sys2Proof.Machine
end

