-- ==== Sys2Proof/Laws/Placed.lean ====
section
/-! SUPPORT. Every operation over the station keeps the law of the apply queue's places (R22). -/

namespace Sys2Proof.Machine

set_option Elab.async false

variable {s t : State}

/-! ## What the law rests on -/

/-- The transmission of `l` goes on in `m`: the same message, as far as its need of a place goes, and no reception that
was not. -/
def Line.Keeps (l m : Line) : Prop :=
  m.transmitting = l.transmitting ∧ (m.rx = .inRun → l.rx = .inRun) ∧
    (l.transmitting = true → ∀ x, l.inFlight = some x → ∃ y, m.inFlight = some y ∧ y.msg.needsPlace = x.msg.needsPlace)

theorem State.placed_congr (ha : t.apply = s.apply) (hl : t.line = s.line) : t.placed ↔ s.placed := by
  unfold State.placed State.reserves
  rw [ha, hl]

theorem State.placed_same (ps : List Part) (h : SameBut ps s t := by simp) (ha : Part.apply ∉ ps := by decide)
    (hl : Part.line ∉ ps := by decide) : t.placed ↔ s.placed := State.placed_congr (h .apply ha) (h .line hl)

theorem State.placed_of_keeps (h : s.placed) (ha : t.apply = s.apply) (hl : s.line.Keeps t.line) : t.placed := by
  obtain ⟨hw, hr, hm⟩ := h
  refine ⟨ha ▸ hw, by rw [ha, hl.1]; exact hr, fun ht => ?_⟩
  rw [hl.1] at ht
  obtain ⟨hx, x, hf, hn⟩ := hm ht
  obtain ⟨y, hy, he⟩ := hl.2.2 ht x hf
  exact ⟨fun hi => hx (hl.2.1 hi), y, hy, fun hp => by rw [ha]; exact hn (he ▸ hp)⟩

/-- A station that receives does not transmit. -/
theorem State.placed_silent (h : s.placed) (hr : s.line.rx = .inRun) : s.line.transmitting = false := by
  cases ht : s.line.transmitting with
  | false => rfl
  | true => exact absurd hr (h.2.2 ht).1

/-- While it does not transmit nothing is reserved, and the line may change in any other way. -/
theorem State.placed_of_silent (h : s.placed) (hs : s.line.transmitting = false) (ht : t.line.transmitting = false)
    (hq : t.apply.queue.length ≤ s.apply.queue.length) (hr : t.apply.reserved = s.apply.reserved) : t.placed := by
  have h0 : s.apply.reserved = false := by
    cases hb : s.apply.reserved with
    | false => rfl
    | true => exact absurd (h.2.1 hb) (by simp [hs])
  have hw := h.1
  refine ⟨?_, by simp [hr, h0], by simp [ht]⟩
  simp only [ApplyEngine.within, hr, h0, if_false, Bool.false_eq_true] at hw ⊢
  omega

@[simp] theorem State.placed_choice {c : Prop} [Decidable c] :
    (if c then s else t).placed ↔ (c → s.placed) ∧ (¬c → t.placed) := by
  split <;> simp [*]

theorem State.foldl_placed {α : Type} {f : State → α → State} (hf : ∀ s a, s.placed → (f s a).placed) (l : List α)
    (h : s.placed) : (l.foldl f s).placed := by
  induction l generalizing s with
  | nil => exact h
  | cons a l ih => exact ih (hf s a h)

/-! ## The queues of the line -/

@[simp] theorem Line.setQueue_transmitting (l : Line) (c : TxClass) (q : List TxMsg) :
    (l.setQueue c q).transmitting = l.transmitting := by cases c <;> rfl
@[simp] theorem Line.setQueue_flight (l : Line) (c : TxClass) (q : List TxMsg) : (l.setQueue c q).flight = l.flight := by
  cases c <;> rfl
@[simp] theorem Line.setQueue_rx (l : Line) (c : TxClass) (q : List TxMsg) : (l.setQueue c q).rx = l.rx := by cases c <;> rfl

theorem Line.queue_setQueue (l : Line) (c d : TxClass) (q : List TxMsg) :
    (l.setQueue c q).queue d = if c = d then q else l.queue d := by cases c <;> cases d <;> rfl

theorem Line.Keeps.refl (l : Line) : l.Keeps l := ⟨rfl, id, fun _ x hx => ⟨x, hx, rfl⟩⟩

theorem Line.Keeps.trans {l m n : Line} (h : l.Keeps m) (k : m.Keeps n) : l.Keeps n :=
  ⟨k.1.trans h.1, fun hr => h.2.1 (k.2.1 hr), fun ht x hx => by
    obtain ⟨y, hy, he⟩ := h.2.2 ht x hx
    obtain ⟨z, hz, hf⟩ := k.2.2 (h.1.trans ht) y hy
    exact ⟨z, hz, hf.trans he⟩⟩

theorem Line.choose_keeps (l : Line) (free : Nat) : l.Keeps (l.choose free) := by
  refine ⟨?_, ?_, fun _ x hx => ?_⟩
  · unfold Line.choose
    repeat' split
    all_goals rfl
  · unfold Line.choose
    repeat' split
    all_goals exact id
  · have : l.choose free = l := by
      unfold Line.choose Line.inFlight at *
      split at hx <;> simp_all
    exact ⟨x, by rw [this]; exact hx, rfl⟩

/-- What the arbiter picks is allowed to go (R131). -/
theorem Line.choose_allowed {l : Line} {free : Nat} (h : l.flight = none) {m : TxMsg} (hm : (l.choose free).inFlight = some m) :
    m.allowed free = true := by
  unfold Line.choose at hm
  simp only [h] at hm
  repeat' split at hm
  all_goals simp only [Line.inFlight, Line.queue, h] at hm
  all_goals first
    | cases hm
    | (rename_i ha; unfold headAllowed at ha; split at ha <;> simp_all)

theorem Line.enqueue_keeps (l : Line) (m : OutMsg) : l.Keeps (l.setQueue m.cls (l.queue m.cls ++ [⟨m, 0, false⟩])) := by
  refine ⟨by simp, by simp, fun _ x hx => ⟨x, ?_, rfl⟩⟩
  unfold Line.inFlight at *
  simp only [Line.setQueue_flight]
  split at hx
  · next c _ =>
    rw [Line.queue_setQueue]
    split
    · next he => subst he; simp_all
    · exact hx
  · cases hx

theorem withdrawFrom_head (p : OutMsg → Bool) {q : List TxMsg} {x : TxMsg} (h : q.head? = some x) :
    ∃ y, (withdrawFrom true p q).head? = some y ∧ y.msg = x.msg := by
  cases q with
  | nil => cases h
  | cons a r =>
    cases h
    simp only [withdrawFrom, if_true]
    split <;> exact ⟨_, rfl, rfl⟩

theorem Line.withdraw_keeps (l : Line) (p : OutMsg → Bool) : l.Keeps (l.withdraw p) := by
  refine ⟨rfl, id, fun ht x hx => ?_⟩
  unfold Line.inFlight at hx
  split at hx
  · next c hc =>
    obtain ⟨y, hy, he⟩ := withdrawFrom_head p hx
    refine ⟨y, ?_, by rw [he]⟩
    have hs : l.sendsFrom c = true := by simp [Line.sendsFrom, ht, hc]
    cases c <;>
      simp only [Line.inFlight, Line.withdraw, ht, hc, Bool.not_true, Bool.false_and, Bool.false_eq_true, if_false, Line.queue,
        hs] <;>
      exact hy
  · cases hx

/-! ## Operations off the line and the apply queue -/

@[simp] theorem State.modStore_placed (f : Store → Store) : (s.modStore f).placed ↔ s.placed :=
  State.placed_same [.store, .live]
@[simp] theorem State.modTb_placed (f : Timebase → Timebase) : (s.modTb f).placed ↔ s.placed :=
  State.placed_same [.tb, .counter]
@[simp] theorem State.modSched_placed (f : Scheduler → Scheduler) : (s.modSched f).placed ↔ s.placed :=
  State.placed_same [.sched]
@[simp] theorem State.modOut_placed (f : Output → Output) : (s.modOut f).placed ↔ s.placed :=
  State.placed_same [.out]
@[simp] theorem State.modTiming_placed (f : Timing → Timing) : (s.modTiming f).placed ↔ s.placed :=
  State.placed_same [.timing]
@[simp] theorem State.modRoster_placed (f : Roster → Roster) : (s.modRoster f).placed ↔ s.placed :=
  State.placed_same [.roster]
@[simp] theorem State.modSync_placed (f : Sync → Sync) : (s.modSync f).placed ↔ s.placed :=
  State.placed_same [.sync]
@[simp] theorem State.modPair_placed (f : Pair → Pair) : (s.modPair f).placed ↔ s.placed :=
  State.placed_same [.pair]
@[simp] theorem State.modPort_placed (f : Port → Port) : (s.modPort f).placed ↔ s.placed :=
  State.placed_same [.port]
@[simp] theorem State.elapse_placed (d : Nat) : (s.elapse d).placed ↔ s.placed :=
  State.placed_same [.clock]
@[simp] theorem State.emit_placed (f : Env → Emit → Emit) : (s.emit f).placed ↔ s.placed :=
  State.placed_same [.sched, .out, .port]
@[simp] theorem State.post_placed (n : Notice) : (s.post n).placed ↔ s.placed :=
  State.placed_same [.port]
@[simp] theorem State.postAll_placed (l : List Notice) : (s.postAll l).placed ↔ s.placed :=
  State.placed_same [.port]
@[simp] theorem State.request_placed (op : StoreOp) : (s.request op).placed ↔ s.placed :=
  State.placed_same [.store]
@[simp] theorem State.release_placed : s.release.placed ↔ s.placed :=
  State.placed_same [.store]
@[simp] theorem State.sendFailed_placed (m : OutMsg) (r : FailReason) : (s.sendFailed m r).placed ↔ s.placed :=
  State.placed_same [.port]
@[simp] theorem State.sendFailedAll_placed (l : List OutMsg) (r : FailReason) : (s.sendFailedAll l r).placed ↔ s.placed :=
  State.placed_same [.port]
@[simp] theorem State.takeLights_placed : s.takeLights.placed ↔ s.placed :=
  State.placed_same [.out]
@[simp] theorem State.followLights_placed : s.followLights.placed ↔ s.placed :=
  State.placed_same [.out]
@[simp] theorem State.pipsStart_placed : s.pipsStart.placed ↔ s.placed :=
  State.placed_same [.out]
@[simp] theorem State.pipsStop_placed : s.pipsStop.placed ↔ s.placed :=
  State.placed_same [.out]
@[simp] theorem State.reclaim_placed : s.reclaim.placed ↔ s.placed :=
  State.placed_same [.timing]
@[simp] theorem State.postTiming_placed (i : Item) (b : Bool) : (s.postTiming i b).placed ↔ s.placed :=
  State.placed_same [.port]
@[simp] theorem State.computeBacktime_placed (b : Bool) : (s.computeBacktime b).placed ↔ s.placed :=
  State.placed_same [.timing, .port]
@[simp] theorem State.wantProjection_placed : s.wantProjection.placed ↔ s.placed :=
  State.placed_same [.timing, .store]
@[simp] theorem State.timingPulse_placed : s.timingPulse.placed ↔ s.placed :=
  State.placed_same [.timing, .port]
@[simp] theorem State.timingAdopted_placed : s.timingAdopted.placed ↔ s.placed :=
  State.placed_same [.timing, .store]
@[simp] theorem State.projectionDone_placed : s.projectionDone.placed ↔ s.placed :=
  State.placed_same [.timing, .port]
@[simp] theorem State.wantReads_placed : s.wantReads.placed ↔ s.placed :=
  State.placed_same [.store]
@[simp] theorem State.postRole_placed (r : Role) (c : RoleCause) : (s.postRole r c).placed ↔ s.placed :=
  State.placed_same [.port]
@[simp] theorem State.becomeActive_placed (c : RoleCause) : (s.becomeActive c).placed ↔ s.placed :=
  State.placed_same [.store, .sched, .out, .pair, .port]
@[simp] theorem State.becomeStandby_placed (c : RoleCause) : (s.becomeStandby c).placed ↔ s.placed :=
  State.placed_same [.port, .pair, .sched]
@[simp] theorem State.block_placed (c : RoleCause) : (s.block c).placed ↔ s.placed :=
  State.placed_same [.pair, .port]
@[simp] theorem State.takeoverTest_placed : s.takeoverTest.placed ↔ s.placed :=
  State.placed_same [.store, .sched, .out, .pair, .port]
@[simp] theorem State.fitnessChanged_placed : s.fitnessChanged.placed ↔ s.placed :=
  State.placed_same [.store, .sched, .out, .pair, .port]
@[simp] theorem State.usabilityChanged_placed : s.usabilityChanged.placed ↔ s.placed :=
  State.placed_same [.store, .sched, .out, .pair, .port]
@[simp] theorem State.resolveDoubled_placed (c : Presence) : (s.resolveDoubled c).placed ↔ s.placed :=
  State.placed_same [.port, .pair, .sched]
@[simp] theorem State.partnerHeard_placed (c : Presence) : (s.partnerHeard c).placed ↔ s.placed :=
  State.placed_same [.store, .sched, .out, .pair, .port]
@[simp] theorem State.partnerLost_placed : s.partnerLost.placed ↔ s.placed :=
  State.placed_same [.store, .sched, .out, .pair, .port]
@[simp] theorem State.yieldHeard_placed (n : StationNo) : (s.yieldHeard n).placed ↔ s.placed :=
  State.placed_same [.store, .sched, .out, .pair, .port]
@[simp] theorem State.yieldSent_placed : s.yieldSent.placed ↔ s.placed :=
  State.placed_same [.pair]
@[simp] theorem State.yieldLost_placed : s.yieldLost.placed ↔ s.placed :=
  State.placed_same [.pair]
@[simp] theorem State.yieldExpire_placed : s.yieldExpire.placed ↔ s.placed :=
  State.placed_same [.pair, .port]
@[simp] theorem State.pairPulse_placed : s.pairPulse.placed ↔ s.placed :=
  State.placed_same [.pair, .port]
@[simp] theorem State.pairMuted_placed : s.pairMuted.placed ↔ s.placed :=
  State.placed_same [.store, .sched, .out, .pair, .port]
@[simp] theorem State.startRound_placed : s.startRound.placed ↔ s.placed :=
  State.placed_same [.sync]
@[simp] theorem State.streamEnd_placed : s.streamEnd.placed ↔ s.placed :=
  State.placed_same [.sync]
@[simp] theorem State.setStep_placed (n : StepState) (c : StepCause) : (s.setStep n c).placed ↔ s.placed :=
  State.placed_same [.sync, .port]
@[simp] theorem State.askSent_placed : s.askSent.placed ↔ s.placed :=
  State.placed_same [.sync]
@[simp] theorem State.askHeard_placed (n : StationNo) : (s.askHeard n).placed ↔ s.placed :=
  State.placed_same [.sync]
@[simp] theorem State.readPart_placed : s.readPart.placed ↔ s.placed :=
  State.placed_same [.store]
@[simp] theorem State.partSent_placed (k : Nat) : (s.partSent k).placed ↔ s.placed :=
  State.placed_same [.sync, .store]
@[simp] theorem State.wantWrite_placed : s.wantWrite.placed ↔ s.placed :=
  State.placed_same [.store]
@[simp] theorem State.postLock_placed (c : LockCause) (a : Option LockCause) (d : Word) (n : Option StationNo) :
    (s.postLock c a d n).placed ↔ s.placed :=
  State.placed_same [.port]
@[simp] theorem State.afterCorrection_placed : s.afterCorrection.placed ↔ s.placed :=
  State.placed_same [.sched, .out, .port, .timing]
@[simp] theorem State.reportUsability_placed (b : Bool) : (s.reportUsability b).placed ↔ s.placed :=
  State.placed_same [.store, .sched, .out, .pair, .port]
@[simp] theorem State.silenceExpire_placed : s.silenceExpire.placed ↔ s.placed :=
  State.placed_same [.tb, .port]
@[simp] theorem State.acquireExpire_placed : s.acquireExpire.placed ↔ s.placed :=
  State.placed_same [.tb, .port]
@[simp] theorem State.holdoverExpire_placed : s.holdoverExpire.placed ↔ s.placed :=
  State.placed_same [.tb, .store, .sched, .out, .pair, .port]
@[simp] theorem State.elect_placed : s.elect.placed ↔ s.placed :=
  State.placed_same [.tb, .store, .sched, .out, .pair, .port]
@[simp] theorem State.lockTimers_placed : s.lockTimers.placed ↔ s.placed :=
  State.placed_same [.tb, .store, .sched, .out, .pair, .port]
@[simp] theorem State.postPeer_placed (n : StationNo) : (s.postPeer n).placed ↔ s.placed :=
  State.placed_same [.port]
@[simp] theorem State.peerExpire_placed (n : StationNo) : (s.peerExpire n).placed ↔ s.placed :=
  State.placed_same [.roster, .store, .sched, .out, .pair, .port]
@[simp] theorem State.peerPulse_placed (n : StationNo) : (s.peerPulse n).placed ↔ s.placed :=
  State.placed_same [.roster, .store, .sched, .out, .pair, .port]
@[simp] theorem State.rosterPulse_placed : s.rosterPulse.placed ↔ s.placed :=
  State.placed_same [.roster, .store, .sched, .out, .pair, .port]
@[simp] theorem State.raise_placed : s.raise.placed ↔ s.placed :=
  State.placed_same [.tb, .counter]
@[simp] theorem State.watch_placed : s.watch.placed ↔ s.placed :=
  State.placed_same [.tb]
@[simp] theorem State.commit_placed (r : Replica) : (s.commit r).placed ↔ s.placed :=
  State.placed_same [.store, .live]
@[simp] theorem State.editDone_placed (m : EditMsg) (r : Result) (i : Nat) (l : List ItemId) : (s.editDone m r i
    l).placed ↔ s.placed :=
  State.placed_same [.port]
@[simp] theorem State.reportScheduler_placed (m : AirMsg) (o n : Replica) : (s.reportScheduler m o n).placed ↔ s.placed :=
  State.placed_same [.sched, .out, .port]
@[simp] theorem State.reportTiming_placed (m : AirMsg) (o n : Replica) : (s.reportTiming m o n).placed ↔ s.placed :=
  State.placed_same [.timing, .store, .port]
@[simp] theorem State.requestDone_placed : s.requestDone.placed ↔ s.placed :=
  State.placed_same [.port]
@[simp] theorem State.refuse_placed (k : Option ReqKind) (r : RefuseReason) (d : RefuseDetail) : (s.refuse k r
    d).placed ↔ s.placed :=
  State.placed_same [.port]
@[simp] theorem State.storeRead_placed (op : StoreOp) : (s.storeRead op).placed ↔ s.placed :=
  State.placed_same [.store, .port]

/-! ## Operations on the line and the apply queue -/

theorem State.modApply_placed (h : s.placed) {f : ApplyEngine → ApplyEngine}
    (hq : (f s.apply).queue.length ≤ s.apply.queue.length) (hr : (f s.apply).reserved = s.apply.reserved) :
    (s.modApply f).placed := by
  have hw := h.1
  refine ⟨?_, ?_, ?_⟩
  · simp only [ApplyEngine.within, State.modApply, hr] at hw ⊢
    omega
  · simp only [State.modApply, hr]
    exact h.2.1
  · simp only [State.modApply, hr]
    exact h.2.2

theorem State.modLine_placed (h : s.placed) {f : Line → Line} (hk : s.line.Keeps (f s.line)) : (s.modLine f).placed :=
  State.placed_of_keeps h rfl hk

/-- One more in the apply queue, where it has a place. -/
theorem State.append_placed (h : s.placed) {e : QueueEntry}
    (hq : s.apply.queue.length + 1 + (if s.apply.reserved then 1 else 0) ≤ applyPlaces) :
    (s.modApply fun a => { a with queue := a.queue ++ [e] }).placed := by
  refine ⟨?_, h.2.1, h.2.2⟩
  simp only [ApplyEngine.within, State.modApply, List.length_append, List.length_singleton] at *
  exact hq

@[simp] theorem State.arbitrate_placed (h : s.placed) : s.arbitrate.placed := State.modLine_placed h (Line.choose_keeps _ _)

@[simp] theorem State.enqueue_placed (h : s.placed) (m : OutMsg) : (s.enqueue m).placed :=
  State.arbitrate_placed (State.modLine_placed h (Line.enqueue_keeps _ _))

@[simp] theorem State.withdraw_placed (h : s.placed) (p : OutMsg → Bool) : (s.withdraw p).placed :=
  State.arbitrate_placed (State.modLine_placed h (Line.withdraw_keeps _ _))

@[simp] theorem State.press_placed (h : s.placed) (i : Fin 4) : (s.press i).placed := by
  simp only [State.press]
  repeat' split
  all_goals simp (maxDischargeDepth := 40) [*]

@[simp] theorem State.sample_placed (h : s.placed) (p : Vector Bool 4) : (s.sample p).placed := by
  simp only [State.sample]
  exact State.foldl_placed (fun t i ht => by split <;> simp [ht]) _ (by simp [h])

@[simp] theorem State.outputPulse_placed (h : s.placed) (p : Vector Bool 4) : (s.outputPulse p).placed := by
  simp only [State.outputPulse]
  simp (maxDischargeDepth := 40) [*]

@[simp] theorem State.popQueue_placed (h : s.placed) : s.popQueue.placed :=
  State.arbitrate_placed (State.modApply_placed h (by simp) rfl)

@[simp] theorem State.discardOrdered_placed (h : s.placed) : s.discardOrdered.placed := by
  have k : (s.modApply fun a => { a with
      queue := match s.applying, a.queue with
        | true, h :: t => h :: t.filter (!·.isOrdered)
        | _, q => q.filter (!·.isOrdered) }).placed := by
    refine State.modApply_placed h ?_ rfl
    simp only
    split
    · next he =>
      rw [he]
      simpa using List.length_filter_le _ _
    · exact List.length_filter_le _ _
  simp only [State.discardOrdered]
  refine State.arbitrate_placed ?_
  split
  · exact (State.modStore_placed _).mpr k
  · exact k

@[simp] theorem State.kickFor_placed (h : s.placed) (n : Nat) : (s.kickFor n).placed := by
  induction n generalizing s with
  | zero => exact h
  | succ n ih =>
    simp only [State.kickFor]
    repeat' split
    all_goals simp (maxDischargeDepth := 40) [*]

@[simp] theorem State.kick_placed (h : s.placed) : s.kick.placed := State.kickFor_placed h _

@[simp] theorem State.abandonResponder_placed (h : s.placed) : s.abandonResponder.placed := by
  have k : (s.modApply fun a => { a with queue := a.queue.map QueueEntry.voided }).placed :=
    State.modApply_placed h (by simp) rfl
  simp only [State.abandonResponder]
  repeat' split
  all_goals simp (maxDischargeDepth := 40) [*]

@[simp] theorem State.leaveInStep_placed (h : s.placed) (c : StepCause) : (s.leaveInStep c).placed := by
  simp only [State.leaveInStep]
  repeat' split
  all_goals simp (maxDischargeDepth := 40) [*]

@[simp] theorem State.enterInStep_placed (h : s.placed) (c : StepCause) : (s.enterInStep c).placed := by
  simp only [State.enterInStep]
  simp (maxDischargeDepth := 40) [*]

@[simp] theorem State.abandonCatchUp_placed (h : s.placed) (r : AbandonReason) : (s.abandonCatchUp r).placed := by
  have k (t : State) (ht : t.placed) : (t.modApply fun a => { a with holding := false }).placed :=
    State.modApply_placed ht (Nat.le_refl _) rfl
  simp only [State.abandonCatchUp]
  simp (maxDischargeDepth := 40) [*]

@[simp] theorem State.takeOrdered_placed (h : s.placed) (n : StationNo) (m : Ordered) : (s.takeOrdered n m).placed := by
  have k (hf : 0 < s.apply.freePlaces) :
      (s.modApply fun a => { a with queue := a.queue ++ [.ordered n m] }).placed := by
    refine State.append_placed h ?_
    simp only [ApplyEngine.freePlaces, applyPlaces] at *
    omega
  simp only [State.takeOrdered]
  repeat' split
  all_goals simp_all (maxDischargeDepth := 40)

@[simp] theorem State.possibleLoss_placed (h : s.placed) : s.possibleLoss.placed := by
  simp only [State.possibleLoss]
  repeat' split
  all_goals simp (maxDischargeDepth := 40) [*]

@[simp] theorem State.partLost_placed (h : s.placed) (n : StationNo) : (s.partLost n).placed := by
  simp only [State.partLost]
  repeat' split
  all_goals simp (maxDischargeDepth := 40) [*]

@[simp] theorem State.syncHeard_placed (h : s.placed) (c : Presence) : (s.syncHeard c).placed := by
  simp only [State.syncHeard]
  repeat' split
  all_goals simp (maxDischargeDepth := 40) [*]

@[simp] theorem State.found_placed (h : s.placed) : s.found.placed := by
  simp only [State.found]
  repeat' split
  all_goals simp (maxDischargeDepth := 40) [*]

@[simp] theorem State.askFirst_placed (h : s.placed) : s.askFirst.placed := by
  simp only [State.askFirst]
  repeat' split
  all_goals simp (maxDischargeDepth := 40) [*]

@[simp] theorem State.askAgain_placed (h : s.placed) : s.askAgain.placed := by
  simp only [State.askAgain]
  repeat' split
  all_goals simp (maxDischargeDepth := 40) [*]

@[simp] theorem State.askRetryExpire_placed (h : s.placed) : s.askRetryExpire.placed := by
  simp only [State.askRetryExpire]
  repeat' split
  all_goals simp (maxDischargeDepth := 40) [*]

@[simp] theorem State.askLost_placed (h : s.placed) : s.askLost.placed := by
  simp only [State.askLost]
  repeat' split
  all_goals simp (maxDischargeDepth := 40) [*]

@[simp] theorem State.responseExpire_placed (h : s.placed) : s.responseExpire.placed := by
  simp only [State.responseExpire]
  repeat' split
  all_goals simp (maxDischargeDepth := 40) [*]

/-- The opening completes where its place is free again. -/
theorem State.openingSent_placed (h : s.placed)
    (hq : s.apply.queue.length + 1 + (if s.apply.reserved then 1 else 0) ≤ applyPlaces) (w : Bool) :
    (s.openingSent w).placed := by
  have k := fun b => State.append_placed (e := .marker b) h hq
  simp only [State.openingSent]
  split <;> simp [k]

@[simp] theorem State.partGivenUp_placed (h : s.placed) (k : Nat) : (s.partGivenUp k).placed := by
  simp only [State.partGivenUp]
  repeat' split
  all_goals simp (maxDischargeDepth := 40) [*]

@[simp] theorem State.takeOpening_placed (h : s.placed) (n : StationNo) : (s.takeOpening n).placed := by
  have k (t : State) (ht : t.placed) : (t.modApply fun a => { a with holding := true }).placed :=
    State.modApply_placed ht (Nat.le_refl _) rfl
  simp only [State.takeOpening]
  repeat' split
  all_goals simp (maxDischargeDepth := 40) [*]

@[simp] theorem State.cancelRound_placed (h : s.placed) : s.cancelRound.placed := by
  simp only [State.cancelRound]
  repeat' split
  all_goals simp (maxDischargeDepth := 40) [*]

@[simp] theorem State.openingHeard_placed (h : s.placed) (n : StationNo) : (s.openingHeard n).placed := by
  simp only [State.openingHeard]
  repeat' split
  all_goals simp (maxDischargeDepth := 40) [*]

@[simp] theorem State.partHeard_placed (h : s.placed) (n : StationNo) (k : Nat) (c : List Byte) : (s.partHeard n k
    c).placed := by
  simp only [State.partHeard]
  repeat' split
  all_goals simp (maxDischargeDepth := 40) [*]

@[simp] theorem State.gapExpire_placed (h : s.placed) : s.gapExpire.placed := by
  simp only [State.gapExpire]
  repeat' split
  all_goals simp (maxDischargeDepth := 40) [*]

@[simp] theorem State.syncPulse_placed (h : s.placed) : s.syncPulse.placed := by
  simp only [State.syncPulse]
  repeat' split
  all_goals simp (maxDischargeDepth := 40) [*]

@[simp] theorem State.syncMuted_placed (h : s.placed) : s.syncMuted.placed := by
  simp only [State.syncMuted]
  simp (maxDischargeDepth := 40) [*]

@[simp] theorem State.dropSource_placed (h : s.placed) : s.dropSource.placed := by
  simp only [State.dropSource]
  simp (maxDischargeDepth := 40) [*]

@[simp] theorem State.markHeard_placed (h : s.placed) (n : StationNo) (f : Frame) : (s.markHeard n f).placed := by
  simp only [State.markHeard]
  repeat' split
  all_goals simp (maxDischargeDepth := 40) [*]

@[simp] theorem State.markDue_placed (h : s.placed) : s.markDue.placed := by
  simp only [State.markDue]
  repeat' split
  · exact h
  · exact State.enqueue_placed h _
  · exact State.modLine_placed h (f := fun l => { l with record := { l.record with markSkipped := bump l.record.markSkipped } })
      ⟨rfl, fun hr => hr, fun _ x hx => ⟨x, hx, rfl⟩⟩
  · exact h

@[simp] theorem State.timebasePulse_placed (h : s.placed) : s.timebasePulse.placed := by
  simp only [State.timebasePulse]
  repeat' split
  all_goals simp (maxDischargeDepth := 40) [*]

@[simp] theorem State.timebaseMuted_placed (h : s.placed) : s.timebaseMuted.placed := by
  simp only [State.timebaseMuted]
  repeat' split
  all_goals simp (maxDischargeDepth := 40) [*]

@[simp] theorem State.presenceHeard_placed (h : s.placed) (n : StationNo) (p : List Byte) : (s.presenceHeard n
    p).placed := by
  simp only [State.presenceHeard]
  repeat' split
  all_goals simp (maxDischargeDepth := 40) [*]

@[simp] theorem State.linePulse_placed (h : s.placed) : s.linePulse.placed := by
  have record (f : Line → LineRecord) : (s.modLine fun l => { l with record := f l }).placed :=
    State.modLine_placed h (f := fun l => { l with record := f l }) ⟨rfl, fun hr => hr, fun _ x hx => ⟨x, hx, rfl⟩⟩
  have k : (s.modLine fun l => { l with
      routine := (if s.line.sendsFrom .routine = true then l.routine.take 1 else []) ++ refreshPresence s.presence
        (if s.line.sendsFrom .routine = true then s.line.routine.tail else s.line.routine) }).placed := by
    refine State.modLine_placed h ⟨rfl, fun hr => hr, fun ht x hx => ?_⟩
    unfold Line.inFlight at *
    simp only at *
    split at hx
    · next c hc =>
      cases c with
      | urgent => exact ⟨x, hx, rfl⟩
      | bulk => exact ⟨x, hx, rfl⟩
      | routine =>
        have hs : s.line.sendsFrom .routine = true := by simp [Line.sendsFrom, ht, hc]
        refine ⟨x, ?_, rfl⟩
        simp only [Line.queue, hs, if_true] at *
        cases hq : s.line.routine <;> simp_all
    · cases hx
  simp only [State.linePulse]
  repeat' split
  all_goals first
    | exact h
    | exact State.enqueue_placed h _
    | exact record fun l => { l.record with presenceSkipped := bump l.record.presenceSkipped }
    | simpa [*] using k

@[simp] theorem State.blocks_placed (h : s.placed) (p : Pulse) : (s.blocks p).placed :=
  State.foldl_placed (fun s b h => by cases b <;> simp [State.blockPulse, h]) _ h

@[simp] theorem State.refReturned_placed (h : s.placed) (p : Pulse) : (s.refReturned p).placed := by
  simp only [State.refReturned]
  repeat' split
  all_goals simp (maxDischargeDepth := 40) [*]

@[simp] theorem State.loseRef_placed (h : s.placed) (p : Pulse) : (s.loseRef p).placed := by
  simp only [State.loseRef]
  repeat' split
  all_goals simp (maxDischargeDepth := 40) [*]

/-- An attempt begins where R132 allows it. -/
theorem State.beginAttempt_placed (h : s.placed) (hs : s.line.transmitting = false) {c : TxClass} {m : TxMsg}
    (hc : s.line.flight = some c) (ha : m.allowed s.apply.freePlaces = true) : (s.beginAttempt c m).placed := by
  have h0 : s.apply.reserved = false := by
    cases hb : s.apply.reserved with
    | false => rfl
    | true => exact absurd (h.2.1 hb) (by simp [hs])
  have hn (now : Frame) (n : Word) : (m.msg.stamp now n).needsPlace = m.msg.needsPlace := by cases m.msg <;> rfl
  have hw := h.1
  have hq (l : Line) (q : List TxMsg) : (l.setQueue c q).queue c = q := by simp [Line.queue_setQueue]
  have hi (l : Line) (x : TxMsg) (q : List TxMsg) (b : Bool) (k : Nat) (d : List Byte) (hl : l.flight = some c) :
      ({ l.setQueue c (x :: q) with transmitting := b, attemptAt := k, driven := d, rx := .none } : Line).inFlight = some x := by
    cases c <;> simp [Line.inFlight, Line.setQueue, Line.queue, hl]
  simp only [State.beginAttempt, hn]
  simp only [TxMsg.allowed, ApplyEngine.freePlaces, Bool.or_eq_true, Bool.not_eq_true'] at ha
  simp only [ApplyEngine.within, h0, applyPlaces, Bool.false_eq_true, if_false, Nat.add_zero, Nat.sub_zero] at hw ha
  split
  · next hp =>
    refine ⟨?_, fun _ => rfl, fun _ => ⟨by simp [State.modApply, State.modLine], _, hi _ _ _ _ _ _ hc, fun _ => rfl⟩⟩
    simp only [ApplyEngine.within, State.modApply, State.modLine, applyPlaces, if_true]
    rcases ha with ha | ha
    · simp [ha] at hp
    · have := of_decide_eq_true ha
      omega
  · next hp =>
    refine ⟨?_, fun hr => absurd hr (by simp [State.modLine, h0]),
      fun _ => ⟨by simp [State.modLine], _, hi _ _ _ _ _ _ hc, fun hx => absurd hx (by simpa [hn] using hp)⟩⟩
    simp only [ApplyEngine.within, State.modLine, h0, applyPlaces, Bool.false_eq_true, if_false]
    exact hw

@[simp] theorem State.tryAttempt_placed (h : s.placed) (n : Nat) : (s.tryAttempt n).placed := by
  simp only [State.tryAttempt]
  split
  · exact h
  · next hg =>
    have hs : s.line.transmitting = false := by
      cases ht : s.line.transmitting with
      | false => rfl
      | true => exact absurd (Or.inl ht) hg
    have hb (t : State) (ht : t.placed) (hts : t.line.transmitting = false)
        (ha : ∀ m, t.line.inFlight = some m → m.allowed t.apply.freePlaces = true) :
        (match t.line.flight, t.line.inFlight with
          | some c, some m => t.beginAttempt c m
          | _, _ => t).placed := by
      split
      · next hc hm => exact State.beginAttempt_placed ht hts hc (ha _ hm)
      · exact ht
    split
    · exact h
    · next m hm =>
      split
      · next ha => exact hb s h hs fun x hx => by rw [hm] at hx; cases hx; exact ha
      · refine hb _ (State.arbitrate_placed (State.placed_of_silent h hs hs (Nat.le_refl _) rfl)) ?_ fun x hx => ?_
        · exact Eq.trans (Line.choose_keeps _ _).1 hs
        · exact Line.choose_allowed rfl hx

@[simp] theorem State.endAttempt_placed (h : s.placed) (d : List Byte) : (s.endAttempt d).placed := by
  have hw := h.1
  refine ⟨?_, fun hr => absurd hr (by simp [State.endAttempt, State.modApply]),
    fun ht => absurd ht (by simp [State.endAttempt, State.modApply, State.modLine])⟩
  simp only [ApplyEngine.within, State.endAttempt, State.modApply, State.modLine, Bool.false_eq_true, if_false] at *
  omega

/-- A message leaves its queue once its attempt is over. -/
theorem State.leaveFlight_placed (h : s.placed) (hs : s.line.transmitting = false) (c : TxClass) : (s.leaveFlight c).placed :=
  State.placed_of_silent h hs (by simp [State.leaveFlight, State.modLine, hs]) (Nat.le_refl _) rfl

@[simp] theorem State.reportGiveUp_placed (h : s.placed) (m : OutMsg) : (s.reportGiveUp m).placed := by
  simp only [State.reportGiveUp]
  repeat' split
  all_goals simp (maxDischargeDepth := 40) [*]

@[simp] theorem State.collide_placed (h : s.placed) : s.collide.placed := by
  have silent {u : State} {f : Line → Line} (hu : u.placed) (hs : u.line.transmitting = false)
      (hf : (f u.line).transmitting = false) : (u.modLine f).placed := State.placed_of_silent hu hs hf (Nat.le_refl _) rfl
  simp only [State.collide]
  split
  · next c m _ _ =>
    have h1 := State.endAttempt_placed h (le32 Config.jamPattern)
    have h2 := silent (f := fun l => { l with record := { l.record with collisions := bump l.record.collisions } }) h1 rfl rfl
    have h3 := State.leaveFlight_placed h2 rfl c
    split
    · split <;> simp [h3]
    · split
      · have h4 := silent (f := fun l => { l with record := l.record.giveUp m.msg }) h3
          (by simp [State.leaveFlight, State.modLine, State.endAttempt, State.modApply])
          (by simp [State.leaveFlight, State.modLine, State.endAttempt, State.modApply])
        simp [h4]
      · exact silent h2 rfl (by simp [State.modLine, State.endAttempt, State.modApply])
  · exact h

/-- This station's own copy finds its place free again. -/
theorem State.ownCopy_placed (h : s.placed)
    (hq : s.apply.queue.length + 1 + (if s.apply.reserved then 1 else 0) ≤ applyPlaces) (m : Ordered) : (s.ownCopy m).placed := by
  have k := State.append_placed (e := .ordered s.straps.number m) h hq
  simp only [State.ownCopy]
  split <;> simp [k, h]

/-- What a completion brings, where a message that needs a place finds it. -/
theorem State.completed_placed (h : s.placed) {m : TxMsg}
    (hq : m.msg.needsPlace = true → s.apply.queue.length + 1 + (if s.apply.reserved then 1 else 0) ≤ applyPlaces) :
    (s.completed m).placed := by
  simp only [State.completed]
  split
  all_goals rename_i he
  all_goals simp only [he, OutMsg.needsPlace, decide_eq_true_eq, forall_const] at hq
  all_goals first
    | exact State.ownCopy_placed h hq _
    | (simp [h]; done)
    | (split
       · next hk => exact State.openingSent_placed h (hq hk) _
       · simp [h])

@[simp] theorem State.complete_placed (h : s.placed) (hs : s.line.transmitting = true) : s.complete.placed := by
  simp only [State.complete]
  split
  · next c m _ hm =>
    refine State.arbitrate_placed (State.completed_placed (State.leaveFlight_placed (State.endAttempt_placed h []) rfl c) ?_)
    intro hn
    obtain ⟨_, x, hx, hp⟩ := h.2.2 hs
    have hw := h.1
    rw [hm] at hx
    cases hx
    simp only [ApplyEngine.within, hp hn, if_true, applyPlaces] at hw
    simp only [State.leaveFlight, State.endAttempt, State.modLine, State.modApply, Bool.false_eq_true, if_false, applyPlaces]
    omega
  · exact h

@[simp] theorem State.mute_placed (h : s.placed) (hs : s.line.transmitting = false) : s.mute.placed := by
  have k : (s.modLine fun l => { l with
      muted := true, urgent := [], routine := [], bulk := [], flight := none, backoff := none }).placed :=
    State.placed_of_silent h hs hs (Nat.le_refl _) rfl
  simp only [State.mute]
  split <;> simp [k, h]

@[simp] theorem State.rxOver_placed (h : s.placed) : s.rxOver.placed :=
  State.modLine_placed h ⟨rfl, fun hr => absurd hr (by simp), fun _ x hx => ⟨x, hx, rfl⟩⟩

@[simp] theorem State.count_placed (h : s.placed) (f : LineRecord → LineRecord) : (s.count f).placed :=
  State.modLine_placed h ⟨rfl, id, fun _ x hx => ⟨x, hx, rfl⟩⟩

@[simp] theorem State.reject_placed (h : s.placed) (hs : s.line.transmitting = false) (r : Reception) : (s.reject r).placed := by
  have ho : s.rxOver.line.transmitting = false := hs
  simp only [State.reject]
  repeat' split
  all_goals simp (maxDischargeDepth := 40) [*]

@[simp] theorem State.closeApply_placed (h : s.placed) : s.closeApply.placed :=
  State.kick_placed (State.popQueue_placed (State.modApply_placed (by simp [h]) (Nat.le_refl _) rfl))

@[simp] theorem State.gapFound_placed (h : s.placed) (k : Kind) (w : Word) : (s.gapFound k w).placed :=
  State.kick_placed (State.leaveInStep_placed (State.popQueue_placed (State.modApply_placed (by simp [h]) (Nat.le_refl _) rfl)) _)

@[simp] theorem State.refuseEdit_placed (h : s.placed) (m : EditMsg) (r : Result) (i : Nat) : (s.refuseEdit m r
    i).placed := by
  simp only [State.refuseEdit]
  simp (maxDischargeDepth := 40) [*]

@[simp] theorem State.acceptEdit_placed (h : s.placed) (m : EditMsg) (b : Batch) : (s.acceptEdit m b).placed := by
  simp only [State.acceptEdit]
  simp (maxDischargeDepth := 40) [*]

@[simp] theorem State.editNext_placed (h : s.placed) (row : RawOp → Bool) (m : EditMsg) (b : Batch) :
    (s.editNext row m b).placed := by
  simp only [State.editNext]
  repeat' split
  all_goals first
    | (simp [h]; done)
    | exact State.modApply_placed h (Nat.le_refl _) rfl

@[simp] theorem State.applyEdit_placed (h : s.placed) (row : RawOp → Bool) : (s.applyEdit row).placed := by
  simp only [State.applyEdit]
  repeat' split
  all_goals simp (maxDischargeDepth := 40) [*]

@[simp] theorem State.applyAir_placed (h : s.placed) (row : AirMsg → Bool) : (s.applyAir row).placed := by
  simp only [State.applyAir]
  repeat' split
  all_goals simp (maxDischargeDepth := 40) [*]

@[simp] theorem State.freezeDone_placed (h : s.placed) : s.freezeDone.placed := by
  simp only [State.freezeDone]
  repeat' split
  all_goals simp (maxDischargeDepth := 40) [*]

@[simp] theorem State.partReadDone_placed (h : s.placed) (k : Nat) : (s.partReadDone k).placed := by
  simp only [State.partReadDone]
  repeat' split
  all_goals simp (maxDischargeDepth := 40) [*]

@[simp] theorem State.partWriteDone_placed (h : s.placed) (k : Nat) (c : List Byte) : (s.partWriteDone k c).placed := by
  simp only [State.partWriteDone]
  repeat' split
  all_goals simp (maxDischargeDepth := 40) [*]

@[simp] theorem State.shadowCheckDone_placed (h : s.placed) : s.shadowCheckDone.placed := by
  simp only [State.shadowCheckDone]
  repeat' split
  all_goals simp (maxDischargeDepth := 40) [*]

@[simp] theorem State.swapDone_placed (h : s.placed) : s.swapDone.placed := by
  simp only [State.swapDone]
  split
  · simp [h]
  · simp only [State.timingAdopted_placed, State.wantReads_placed, State.modSched_placed]
    exact State.enterInStep_placed (State.modApply_placed (by simp [h]) (Nat.le_refl _) rfl) _

@[simp] theorem State.offer_placed (h : s.placed) (k : ReqKind) (d : RefuseDetail) (m : OutMsg) : (s.offer k d
    m).placed := by
  simp only [State.offer]
  repeat' split
  all_goals simp (maxDischargeDepth := 40) [*]

@[simp] theorem State.airRequest_placed (h : s.placed) (k : ReqKind) (d : RefuseDetail) (l : List (Bool ×
    RefuseReason)) (m : Option AirMsg) : (s.airRequest k d l m).placed := by
  simp only [State.airRequest]
  repeat' split
  all_goals simp (maxDischargeDepth := 40) [*]

@[simp] theorem State.propose_placed (h : s.placed) (f : List Byte) : (s.propose f).placed := by
  have k (n : Fin 2048) : (s.modApply fun a => { a with serial := n }).placed := State.modApply_placed h (Nat.le_refl _) rfl
  simp only [State.propose]
  repeat' split
  all_goals simp (maxDischargeDepth := 40) [*]

@[simp] theorem State.yieldOffer_placed (h : s.placed) : s.yieldOffer.placed := by
  simp only [State.yieldOffer]
  repeat' split
  all_goals simp (maxDischargeDepth := 40) [*]

end Sys2Proof.Machine
end

