-- ==== Sys2Proof/Laws/Within.lean ====
section
/-! SUPPORT. Every operation over the station keeps the queues and tables within their places. -/

namespace Sys2Proof.Machine

variable {s : State}

/-! ## Updates -/

@[simp] theorem State.modStore_within {f : Store → Store} : (s.modStore f).within ↔ s.within := Iff.rfl
@[simp] theorem State.modApply_within {f : ApplyEngine → ApplyEngine} : (s.modApply f).within ↔ s.within := Iff.rfl
@[simp] theorem State.modTb_within {f : Timebase → Timebase} : (s.modTb f).within ↔ s.within := Iff.rfl
@[simp] theorem State.modOut_within {f : Output → Output} : (s.modOut f).within ↔ s.within := Iff.rfl
@[simp] theorem State.modTiming_within {f : Timing → Timing} : (s.modTiming f).within ↔ s.within := Iff.rfl
@[simp] theorem State.modRoster_within {f : Roster → Roster} : (s.modRoster f).within ↔ s.within := Iff.rfl
@[simp] theorem State.modSync_within {f : Sync → Sync} : (s.modSync f).within ↔ s.within := Iff.rfl
@[simp] theorem State.modPair_within {f : Pair → Pair} : (s.modPair f).within ↔ s.within := Iff.rfl
@[simp] theorem State.elapse_within {d : Nat} : (s.elapse d).within ↔ s.within := Iff.rfl

@[simp] theorem State.modSched_within {f : Scheduler → Scheduler} (h : s.within)
    (ha : (f s.sched).armed.length ≤ s.sched.armed.length)
    (hl : (f s.sched).shadowList.length ≤ s.sched.shadowList.length)
    (hn : distinctNames s.sched.armed → distinctNames (f s.sched).armed) : (s.modSched f).within :=
  ⟨h.1, ⟨Nat.le_trans ha h.2.1.1, Nat.le_trans hl h.2.1.2.1, hn h.2.1.2.2⟩, h.2.2⟩

@[simp] theorem State.modPort_within {f : Port → Port} (h : s.within)
    (hu : (f s.port).urgent.length ≤ s.port.urgent.length) (hr : (f s.port).routine.length ≤ s.port.routine.length)
    (hq : (f s.port).requests.length ≤ s.port.requests.length) : (s.modPort f).within :=
  ⟨⟨Nat.le_trans hu h.1.1, Nat.le_trans hr h.1.2.1, Nat.le_trans hq h.1.2.2⟩, h.2⟩

theorem Line.within_of_le {l m : Line} (h : l.within) (hu : m.urgent.length ≤ l.urgent.length)
    (hr : m.routine.length ≤ l.routine.length) (hb : m.bulk.length ≤ l.bulk.length) : m.within := fun c =>
  match c with
  | .urgent => Nat.le_trans hu (h .urgent)
  | .routine => Nat.le_trans hr (h .routine)
  | .bulk => Nat.le_trans hb (h .bulk)

@[simp] theorem State.modLine_within {f : Line → Line} (h : s.within)
    (hu : (f s.line).urgent.length ≤ s.line.urgent.length) (hr : (f s.line).routine.length ≤ s.line.routine.length)
    (hb : (f s.line).bulk.length ≤ s.line.bulk.length) : (s.modLine f).within :=
  ⟨h.1, h.2.1, Line.within_of_le h.2.2 hu hr hb⟩

@[simp] theorem State.emit_within {f : Env → Emit → Emit} (h : s.within) (hf : ∀ env m, Emit.Sat Emit.within m → (f env m).Sat Emit.within) :
    (s.emit f).within :=
  have k : Emit.within _ := hf s.env ⟨s.sched, s.out, s.port⟩ ⟨h.2.1, h.1⟩
  ⟨k.2, k.1, h.2.2⟩

theorem State.foldl_within {α : Type} {f : State → α → State} (hf : ∀ s a, s.within → (f s a).within) (l : List α)
    (h : s.within) : (l.foldl f s).within := by
  induction l generalizing s with
  | nil => exact h
  | cons a l ih => exact ih (hf s a h)

/-- A queue of the line replaced by one that has its places. -/
theorem Line.setQueue_within {l : Line} (h : l.within) {c : TxClass} {q : List TxMsg} (hq : q.length ≤ c.places) :
    (l.setQueue c q).within := by
  intro d
  have hd := h d
  cases c <;> cases d <;> first | exact hq | exact hd

@[simp] theorem State.within_choice {c : Prop} [Decidable c] {t : State} :
    (if c then s else t).within ↔ (c → s.within) ∧ (¬c → t.within) := by
  split <;> simp [*]

@[simp] theorem withdrawFrom_length (b : Bool) (p : OutMsg → Bool) (q : List TxMsg) :
    (withdrawFrom b p q).length ≤ q.length := by
  cases q with
  | nil => simp [withdrawFrom]
  | cons a t =>
    have := List.length_filter_le (fun m : TxMsg => !p m.msg) t
    simp only [withdrawFrom]
    split
    · simpa using this
    · split
      · simp; omega
      · simpa using this

@[simp] theorem refreshPresence_length (c : Presence) (q : List TxMsg) : (refreshPresence c q).length = q.length := by
  induction q with
  | nil => rfl
  | cons m r ih => unfold refreshPresence; split <;> simp [ih]

/-- One queue of the line replaced, whatever else of the line besides the queues changes with it. -/
theorem State.setQueue_within (h : s.within) {c : TxClass} {q : List TxMsg} (hq : q.length ≤ c.places) {f : Line → Line}
    (hu : (f s.line).urgent = (s.line.setQueue c q).urgent) (hr : (f s.line).routine = (s.line.setQueue c q).routine)
    (hb : (f s.line).bulk = (s.line.setQueue c q).bulk) : (s.modLine f).within :=
  ⟨h.1, h.2.1, Line.within_of_le (Line.setQueue_within h.2.2 hq) (Nat.le_of_eq (congrArg _ hu))
    (Nat.le_of_eq (congrArg _ hr)) (Nat.le_of_eq (congrArg _ hb))⟩

theorem setHead_length {q : List TxMsg} {c : TxClass} (h : q.length ≤ c.places) (m : TxMsg) :
    (setHead q m).length ≤ c.places := by
  have : 1 ≤ c.places := by cases c <;> decide
  cases q with
  | nil => exact this
  | cons a r => exact h

@[simp] theorem Scheduler.standDown_armed (sc : Scheduler) : sc.standDown.armed.length = sc.armed.length := by
  simp [Scheduler.standDown]

@[simp] theorem Scheduler.standDown_names (sc : Scheduler) : distinctNames sc.standDown.armed ↔ distinctNames sc.armed :=
  map_names (g := fun e => { e with flags := { e.flags with shadow := true } }) fun _ => rfl

@[simp] theorem Scheduler.standDown_shadowList (sc : Scheduler) : sc.standDown.shadowList = [] := rfl

@[simp] theorem Scheduler.adopted_armed (sc : Scheduler) : sc.adopted.armed = sc.armed := rfl

@[simp] theorem Scheduler.adopted_shadowList (sc : Scheduler) : sc.adopted.shadowList = [] := rfl

@[simp] theorem Scheduler.prune_armed (sc : Scheduler) (d : Option Frame) : (sc.prune d).armed = sc.armed := by
  unfold Scheduler.prune; split <;> rfl

@[simp] theorem Scheduler.prune_shadowList (sc : Scheduler) (d : Option Frame) :
    (sc.prune d).shadowList.length ≤ sc.shadowList.length := by
  unfold Scheduler.prune
  split
  · exact List.length_filter_le _ _
  · exact Nat.le_refl _

/-! ## Operations -/

@[simp] theorem State.raise_within : s.raise.within ↔ s.within := Iff.rfl
@[simp] theorem State.watch_within : s.watch.within ↔ s.within := Iff.rfl

@[simp] theorem State.post_within (h : s.within) (n : Notice) : (s.post n).within :=
  ⟨Port.post_within h.1 n, h.2⟩

@[simp] theorem State.arbitrate_within (h : s.within) : s.arbitrate.within := by
  refine ⟨h.1, h.2.1, Line.within_of_le h.2.2 ?_ ?_ ?_⟩ <;>
    simp only [State.arbitrate, State.modLine, Line.choose] <;> repeat' split
  all_goals exact Nat.le_refl _

/-- A message offered where `canOffer` holds finds its place. -/
@[simp] theorem State.enqueue_within (h : s.within) {m : OutMsg} (hm : s.canOffer m = true) : (s.enqueue m).within := by
  refine State.arbitrate_within ⟨h.1, h.2.1, Line.setQueue_within h.2.2 ?_⟩
  have : (s.line.queue m.cls).length < m.cls.places := by
    simp only [State.canOffer, Bool.and_eq_true, decide_eq_true_eq] at hm
    exact hm.2
  rw [List.length_append]
  exact this

@[simp] theorem State.postAll_within (h : s.within) (l : List Notice) : (s.postAll l).within := by
  exact State.foldl_within (fun _ _ h => by simp [h]) _ h

@[simp] theorem State.request_within (h : s.within) (op : StoreOp) : (s.request op).within := by
  simp only [State.request]
  simp (maxDischargeDepth := 40) [*]

@[simp] theorem State.release_within (h : s.within) : s.release.within := by
  simp only [State.release]
  simp (maxDischargeDepth := 40) [*]

@[simp] theorem State.withdraw_within (h : s.within) (p : OutMsg → Bool) : (s.withdraw p).within := by
  exact State.arbitrate_within (State.modLine_within h (withdrawFrom_length _ _ _) (withdrawFrom_length _ _ _)
    (withdrawFrom_length _ _ _))

@[simp] theorem State.sendFailed_within (h : s.within) (m : OutMsg) (r : FailReason) : (s.sendFailed m r).within := by
  simp only [State.sendFailed]
  repeat' split
  all_goals simp (maxDischargeDepth := 40) [*]

@[simp] theorem State.sendFailedAll_within (h : s.within) (l : List OutMsg) (r : FailReason) : (s.sendFailedAll l
    r).within := by
  exact State.foldl_within (fun _ _ h => by simp [h]) _ h

@[simp] theorem State.takeLights_within (h : s.within) : s.takeLights.within := by
  simp only [State.takeLights]
  simp (maxDischargeDepth := 40) [*]

@[simp] theorem State.followLights_within (h : s.within) : s.followLights.within := by
  simp only [State.followLights]
  repeat' split
  all_goals simp (maxDischargeDepth := 40) [*]

@[simp] theorem State.pipsStart_within (h : s.within) : s.pipsStart.within := by
  simp only [State.pipsStart]
  repeat' split
  all_goals simp (maxDischargeDepth := 40) [*]

@[simp] theorem State.pipsStop_within (h : s.within) : s.pipsStop.within := by
  simp only [State.pipsStop]
  repeat' split
  all_goals simp (maxDischargeDepth := 40) [*]

@[simp] theorem State.press_within (h : s.within) (i : Fin 4) : (s.press i).within := by
  simp only [State.press]
  split
  · exact h
  · split
    · exact h
    · refine State.post_within ?_ _
      split
      · next hw =>
        refine State.enqueue_within h ?_
        simp only [State.readyRefusal] at hw
        repeat' split at hw
        all_goals simp_all
      · exact h

@[simp] theorem State.sample_within (h : s.within) (p : Vector Bool 4) : (s.sample p).within := by
  simp only [State.sample]
  repeat' split
  all_goals simp (maxDischargeDepth := 40) [*]

@[simp] theorem State.outputPulse_within (h : s.within) (p : Vector Bool 4) : (s.outputPulse p).within := by
  simp only [State.outputPulse]
  simp (maxDischargeDepth := 40) [*]

@[simp] theorem State.reclaim_within (h : s.within) : s.reclaim.within := by
  simp only [State.reclaim]
  simp (maxDischargeDepth := 40) [*]

@[simp] theorem State.postTiming_within (h : s.within) (i : Item) (b : Bool) : (s.postTiming i b).within := by
  simp only [State.postTiming]
  repeat' split
  all_goals simp (maxDischargeDepth := 40) [*]

@[simp] theorem State.computeBacktime_within (h : s.within) (b : Bool) : (s.computeBacktime b).within := by
  simp only [State.computeBacktime]
  repeat' split
  all_goals simp (maxDischargeDepth := 40) [*]

@[simp] theorem State.wantProjection_within (h : s.within) : s.wantProjection.within := by
  simp only [State.wantProjection]
  repeat' split
  all_goals simp (maxDischargeDepth := 40) [*]

@[simp] theorem State.timingPulse_within (h : s.within) : s.timingPulse.within := by
  simp only [State.timingPulse]
  simp (maxDischargeDepth := 40) [*]

@[simp] theorem State.timingAdopted_within (h : s.within) : s.timingAdopted.within := by
  simp only [State.timingAdopted]
  simp (maxDischargeDepth := 40) [*]

@[simp] theorem State.projectionDone_within (h : s.within) : s.projectionDone.within := by
  simp only [State.projectionDone]
  simp (maxDischargeDepth := 40) [*]

@[simp] theorem State.wantReads_within (h : s.within) : s.wantReads.within := by
  simp only [State.wantReads]
  repeat' split
  all_goals simp (maxDischargeDepth := 40) [*]

@[simp] theorem State.postRole_within (h : s.within) (r : Role) (c : RoleCause) : (s.postRole r c).within := by
  simp only [State.postRole]
  repeat' split
  all_goals simp (maxDischargeDepth := 40) [*]

@[simp] theorem State.becomeActive_within (h : s.within) (c : RoleCause) : (s.becomeActive c).within := by
  simp only [State.becomeActive]
  simp +contextual (maxDischargeDepth := 40) [*, Emit.within_closed]

@[simp] theorem State.becomeStandby_within (h : s.within) (c : RoleCause) : (s.becomeStandby c).within := by
  exact State.modSched_within (by simp [h]) (by simp) (by simp) (Scheduler.standDown_names _).mpr

@[simp] theorem State.block_within (h : s.within) (c : RoleCause) : (s.block c).within := by
  simp only [State.block]
  repeat' split
  all_goals simp (maxDischargeDepth := 40) [*]

@[simp] theorem State.takeoverTest_within (h : s.within) : s.takeoverTest.within := by
  simp only [State.takeoverTest]
  repeat' split
  all_goals simp (maxDischargeDepth := 40) [*]

@[simp] theorem State.fitnessChanged_within (h : s.within) : s.fitnessChanged.within := by
  simp only [State.fitnessChanged]
  simp (maxDischargeDepth := 40) [*]

@[simp] theorem State.usabilityChanged_within (h : s.within) : s.usabilityChanged.within := by
  simp only [State.usabilityChanged]
  repeat' split
  all_goals first | (simp (maxDischargeDepth := 40) [*]; done) | simp +contextual (maxDischargeDepth := 40) [*, Emit.within_closed]

@[simp] theorem State.resolveDoubled_within (h : s.within) (c : Presence) : (s.resolveDoubled c).within := by
  simp only [State.resolveDoubled]
  repeat' split
  all_goals simp (maxDischargeDepth := 40) [*]

@[simp] theorem State.partnerHeard_within (h : s.within) (c : Presence) : (s.partnerHeard c).within := by
  have k : ∀ t : State, t.within → (t.modSched (·.prune c.doneThrough)).within := fun t ht =>
    State.modSched_within ht (by simp) (by simp) (by simp)
  simp only [State.partnerHeard]
  repeat' split
  all_goals simp (maxDischargeDepth := 40) [*]

@[simp] theorem State.partnerLost_within (h : s.within) : s.partnerLost.within := by
  simp only [State.partnerLost]
  simp (maxDischargeDepth := 40) [*]

@[simp] theorem State.yieldHeard_within (h : s.within) (n : StationNo) : (s.yieldHeard n).within := by
  simp only [State.yieldHeard]
  repeat' split
  all_goals simp (maxDischargeDepth := 40) [*]

@[simp] theorem State.yieldSent_within (h : s.within) : s.yieldSent.within := by
  simp only [State.yieldSent]
  repeat' split
  all_goals simp (maxDischargeDepth := 40) [*]

@[simp] theorem State.yieldLost_within (h : s.within) : s.yieldLost.within := by
  simp only [State.yieldLost]
  simp (maxDischargeDepth := 40) [*]

@[simp] theorem State.yieldExpire_within (h : s.within) : s.yieldExpire.within := by
  simp only [State.yieldExpire]
  repeat' split
  all_goals simp (maxDischargeDepth := 40) [*]

@[simp] theorem State.pairPulse_within (h : s.within) : s.pairPulse.within := by
  simp only [State.pairPulse]
  repeat' split
  all_goals simp (maxDischargeDepth := 40) [*]

@[simp] theorem State.pairMuted_within (h : s.within) : s.pairMuted.within := by
  simp only [State.pairMuted]
  repeat' split
  all_goals simp (maxDischargeDepth := 40) [*]

@[simp] theorem State.popQueue_within (h : s.within) : s.popQueue.within := by
  simp only [State.popQueue]
  simp (maxDischargeDepth := 40) [*]

@[simp] theorem State.discardOrdered_within (h : s.within) : s.discardOrdered.within := by
  simp only [State.discardOrdered]
  repeat' split
  all_goals simp (maxDischargeDepth := 40) [*]

@[simp] theorem State.startRound_within (h : s.within) : s.startRound.within := by
  simp only [State.startRound]
  repeat' split
  all_goals simp (maxDischargeDepth := 40) [*]

@[simp] theorem State.streamEnd_within (h : s.within) : s.streamEnd.within := by
  simp only [State.streamEnd]
  repeat' split
  all_goals simp (maxDischargeDepth := 40) [*]

@[simp] theorem State.kickFor_within (h : s.within) (n : Nat) : (s.kickFor n).within := by
  induction n generalizing s with
  | zero => exact h
  | succ n ih =>
    simp only [State.kickFor]
    repeat' split
    all_goals simp (maxDischargeDepth := 40) [*]

@[simp] theorem State.kick_within (h : s.within) : s.kick.within := by
  simp only [State.kick]
  simp (maxDischargeDepth := 40) [*]

@[simp] theorem State.abandonResponder_within (h : s.within) : s.abandonResponder.within := by
  simp only [State.abandonResponder]
  repeat' split
  all_goals simp (maxDischargeDepth := 40) [*]

@[simp] theorem State.setStep_within (h : s.within) (n : StepState) (c : StepCause) : (s.setStep n c).within := by
  simp only [State.setStep]
  simp (maxDischargeDepth := 40) [*]

@[simp] theorem State.leaveInStep_within (h : s.within) (c : StepCause) : (s.leaveInStep c).within := by
  simp only [State.leaveInStep]
  repeat' split
  all_goals simp (maxDischargeDepth := 40) [*]

@[simp] theorem State.enterInStep_within (h : s.within) (c : StepCause) : (s.enterInStep c).within := by
  simp only [State.enterInStep]
  simp (maxDischargeDepth := 40) [*]

@[simp] theorem State.abandonCatchUp_within (h : s.within) (r : AbandonReason) : (s.abandonCatchUp r).within := by
  simp only [State.abandonCatchUp]
  simp (maxDischargeDepth := 40) [*]

@[simp] theorem State.takeOrdered_within (h : s.within) (n : StationNo) (m : Ordered) : (s.takeOrdered n m).within := by
  simp only [State.takeOrdered]
  repeat' split
  all_goals simp (maxDischargeDepth := 40) [*]

@[simp] theorem State.possibleLoss_within (h : s.within) : s.possibleLoss.within := by
  simp only [State.possibleLoss]
  repeat' split
  all_goals simp (maxDischargeDepth := 40) [*]

@[simp] theorem State.partLost_within (h : s.within) (n : StationNo) : (s.partLost n).within := by
  simp only [State.partLost]
  repeat' split
  all_goals simp (maxDischargeDepth := 40) [*]

@[simp] theorem State.syncHeard_within (h : s.within) (c : Presence) : (s.syncHeard c).within := by
  simp only [State.syncHeard]
  repeat' split
  all_goals simp (maxDischargeDepth := 40) [*]

@[simp] theorem State.found_within (h : s.within) : s.found.within := by
  simp only [State.found]
  repeat' split
  all_goals simp (maxDischargeDepth := 40) [*]

@[simp] theorem State.askFirst_within (h : s.within) : s.askFirst.within := by
  simp only [State.askFirst]
  repeat' split
  all_goals simp (maxDischargeDepth := 40) [*]

@[simp] theorem State.askAgain_within (h : s.within) : s.askAgain.within := by
  simp only [State.askAgain]
  repeat' split
  all_goals simp (maxDischargeDepth := 40) [*]

@[simp] theorem State.askRetryExpire_within (h : s.within) : s.askRetryExpire.within := by
  simp only [State.askRetryExpire]
  repeat' split
  all_goals simp (maxDischargeDepth := 40) [*]

@[simp] theorem State.askSent_within (h : s.within) : s.askSent.within := by
  simp only [State.askSent]
  simp (maxDischargeDepth := 40) [*]

@[simp] theorem State.askLost_within (h : s.within) : s.askLost.within := by
  simp only [State.askLost]
  repeat' split
  all_goals simp (maxDischargeDepth := 40) [*]

@[simp] theorem State.askHeard_within (h : s.within) (n : StationNo) : (s.askHeard n).within := by
  simp only [State.askHeard]
  repeat' split
  all_goals simp (maxDischargeDepth := 40) [*]

@[simp] theorem State.responseExpire_within (h : s.within) : s.responseExpire.within := by
  simp only [State.responseExpire]
  repeat' split
  all_goals simp (maxDischargeDepth := 40) [*]

@[simp] theorem State.openingSent_within (h : s.within) (w : Bool) : (s.openingSent w).within := by
  simp only [State.openingSent]
  repeat' split
  all_goals simp (maxDischargeDepth := 40) [*]

@[simp] theorem State.readPart_within (h : s.within) : s.readPart.within := by
  simp only [State.readPart]
  repeat' split
  all_goals simp (maxDischargeDepth := 40) [*]

@[simp] theorem State.partSent_within (h : s.within) (k : Nat) : (s.partSent k).within := by
  simp only [State.partSent]
  repeat' split
  all_goals simp (maxDischargeDepth := 40) [*]

@[simp] theorem State.partGivenUp_within (h : s.within) (k : Nat) : (s.partGivenUp k).within := by
  simp only [State.partGivenUp]
  repeat' split
  all_goals simp (maxDischargeDepth := 40) [*]

@[simp] theorem State.wantWrite_within (h : s.within) : s.wantWrite.within := by
  simp only [State.wantWrite]
  repeat' split
  all_goals simp (maxDischargeDepth := 40) [*]

@[simp] theorem State.takeOpening_within (h : s.within) (n : StationNo) : (s.takeOpening n).within := by
  simp only [State.takeOpening]
  repeat' split
  all_goals simp (maxDischargeDepth := 40) [*]

@[simp] theorem State.cancelRound_within (h : s.within) : s.cancelRound.within := by
  simp only [State.cancelRound]
  repeat' split
  all_goals simp (maxDischargeDepth := 40) [*]

@[simp] theorem State.openingHeard_within (h : s.within) (n : StationNo) : (s.openingHeard n).within := by
  simp only [State.openingHeard]
  repeat' split
  all_goals simp (maxDischargeDepth := 40) [*]

@[simp] theorem State.partHeard_within (h : s.within) (n : StationNo) (k : Nat) (c : List Byte) : (s.partHeard n k
    c).within := by
  simp only [State.partHeard]
  repeat' split
  all_goals simp (maxDischargeDepth := 40) [*]

@[simp] theorem State.gapExpire_within (h : s.within) : s.gapExpire.within := by
  simp only [State.gapExpire]
  repeat' split
  all_goals simp (maxDischargeDepth := 40) [*]

@[simp] theorem State.syncPulse_within (h : s.within) : s.syncPulse.within := by
  simp only [State.syncPulse]
  repeat' split
  all_goals simp (maxDischargeDepth := 40) [*]

@[simp] theorem State.syncMuted_within (h : s.within) : s.syncMuted.within := by
  simp only [State.syncMuted]
  simp (maxDischargeDepth := 40) [*]

@[simp] theorem State.postLock_within (h : s.within) (c : LockCause) (a : Option LockCause) (d : Word) (n : Option
    StationNo) : (s.postLock c a d n).within := by
  simp only [State.postLock]
  simp (maxDischargeDepth := 40) [*]

@[simp] theorem State.afterCorrection_within (h : s.within) : s.afterCorrection.within := by
  simp only [State.afterCorrection]
  simp +contextual (maxDischargeDepth := 40) [*, Emit.within_closed]

@[simp] theorem State.reportUsability_within (h : s.within) (b : Bool) : (s.reportUsability b).within := by
  simp only [State.reportUsability]
  repeat' split
  all_goals simp (maxDischargeDepth := 40) [*]

@[simp] theorem State.dropSource_within (h : s.within) : s.dropSource.within := by
  simp only [State.dropSource]
  simp (maxDischargeDepth := 40) [*]

@[simp] theorem State.markHeard_within (h : s.within) (n : StationNo) (f : Frame) : (s.markHeard n f).within := by
  simp only [State.markHeard]
  repeat' split
  all_goals simp (maxDischargeDepth := 40) [*]

@[simp] theorem State.silenceExpire_within (h : s.within) : s.silenceExpire.within := by
  simp only [State.silenceExpire]
  repeat' split
  all_goals simp (maxDischargeDepth := 40) [*]

@[simp] theorem State.acquireExpire_within (h : s.within) : s.acquireExpire.within := by
  simp only [State.acquireExpire]
  repeat' split
  all_goals simp (maxDischargeDepth := 40) [*]

@[simp] theorem State.holdoverExpire_within (h : s.within) : s.holdoverExpire.within := by
  simp only [State.holdoverExpire]
  repeat' split
  all_goals simp (maxDischargeDepth := 40) [*]

@[simp] theorem State.elect_within (h : s.within) : s.elect.within := by
  simp only [State.elect]
  repeat' split
  all_goals simp (maxDischargeDepth := 40) [*]

@[simp] theorem State.markDue_within (h : s.within) : s.markDue.within := by
  simp only [State.markDue]
  repeat' split
  all_goals simp (maxDischargeDepth := 40) [*]

@[simp] theorem State.lockTimers_within (h : s.within) : s.lockTimers.within := by
  simp only [State.lockTimers]
  repeat' split
  all_goals simp (maxDischargeDepth := 40) [*]

@[simp] theorem State.timebasePulse_within (h : s.within) : s.timebasePulse.within := by
  simp only [State.timebasePulse]
  repeat' split
  all_goals simp (maxDischargeDepth := 40) [*]

@[simp] theorem State.timebaseMuted_within (h : s.within) : s.timebaseMuted.within := by
  simp only [State.timebaseMuted]
  repeat' split
  all_goals simp (maxDischargeDepth := 40) [*]

@[simp] theorem State.postPeer_within (h : s.within) (n : StationNo) : (s.postPeer n).within := by
  simp only [State.postPeer]
  simp (maxDischargeDepth := 40) [*]

@[simp] theorem State.peerExpire_within (h : s.within) (n : StationNo) : (s.peerExpire n).within := by
  simp only [State.peerExpire]
  repeat' split
  all_goals simp (maxDischargeDepth := 40) [*]

@[simp] theorem State.peerPulse_within (h : s.within) (n : StationNo) : (s.peerPulse n).within := by
  simp only [State.peerPulse]
  repeat' split
  all_goals simp (maxDischargeDepth := 40) [*]

@[simp] theorem State.rosterPulse_within (h : s.within) : s.rosterPulse.within := by
  exact State.foldl_within (fun _ _ h => by simp [h]) _ h

@[simp] theorem State.presenceHeard_within (h : s.within) (n : StationNo) (p : List Byte) : (s.presenceHeard n
    p).within := by
  simp only [State.presenceHeard]
  repeat' split
  all_goals simp (maxDischargeDepth := 40) [*]

@[simp] theorem State.linePulse_within (h : s.within) : s.linePulse.within := by
  simp only [State.linePulse]
  repeat' split
  all_goals first
    | exact h
    | (simp (maxDischargeDepth := 40) [*]; done)
    | skip
  · next hp =>
    refine State.modLine_within h (Nat.le_refl _) ?_ (Nat.le_refl _)
    have : s.line.routine ≠ [] := fun hn => by simp [hn] at hp
    have := List.length_pos_iff.mpr this
    simp only [List.length_append, refreshPresence_length, List.length_take, List.length_tail]
    omega

@[simp] theorem State.blocks_within (h : s.within) (p : Pulse) : (s.blocks p).within := by
  exact State.foldl_within (fun s b h => by
    cases b <;> simp +contextual (maxDischargeDepth := 40) [State.blockPulse, h, Emit.within_closed]) _ h

@[simp] theorem State.refReturned_within (h : s.within) (p : Pulse) : (s.refReturned p).within := by
  simp only [State.refReturned]
  repeat' split
  all_goals simp (maxDischargeDepth := 40) [*]

@[simp] theorem State.loseRef_within (h : s.within) (p : Pulse) : (s.loseRef p).within := by
  simp only [State.loseRef]
  repeat' split
  all_goals simp (maxDischargeDepth := 40) [*]

@[simp] theorem State.beginAttempt_within (h : s.within) (c : TxClass) (m : TxMsg) : (s.beginAttempt c m).within := by
  simp only [State.beginAttempt]
  have := State.setQueue_within h (setHead_length (h.2.2 c) { m with msg := m.msg.stamp s.now s.store.summary.airCount })
    (f := fun l => { l.setQueue c (setHead (l.queue c) { m with msg := m.msg.stamp s.now s.store.summary.airCount }) with
      transmitting := true, attemptAt := s.clock,
      driven := (m.msg.stamp s.now s.store.summary.airCount).transmission s.straps.number, rx := .none }) rfl rfl rfl
  split <;> simpa using this

@[simp] theorem State.tryAttempt_within (h : s.within) (n : Nat) : (s.tryAttempt n).within := by
  simp only [State.tryAttempt]
  repeat' split
  all_goals simp (maxDischargeDepth := 40) [*]

@[simp] theorem State.endAttempt_within (h : s.within) (d : List Byte) : (s.endAttempt d).within := by
  simp only [State.endAttempt]
  simp (maxDischargeDepth := 40) [*]

@[simp] theorem State.leaveFlight_within (h : s.within) (c : TxClass) : (s.leaveFlight c).within := by
  refine State.setQueue_within h (q := (s.line.queue c).tail) ?_ rfl rfl rfl
  have := h.2.2 c
  rw [List.length_tail]
  omega

@[simp] theorem State.reportGiveUp_within (h : s.within) (m : OutMsg) : (s.reportGiveUp m).within := by
  simp only [State.reportGiveUp]
  repeat' split
  all_goals simp (maxDischargeDepth := 40) [*]

@[simp] theorem State.collide_within (h : s.within) : s.collide.within := by
  simp only [State.collide]
  repeat' split
  all_goals first
    | (simp (maxDischargeDepth := 40) [*]; done)
    | exact State.setQueue_within (by simp [h]) (setHead_length (h.2.2 _) _) rfl rfl rfl

@[simp] theorem State.ownCopy_within (h : s.within) (m : Ordered) : (s.ownCopy m).within := by
  simp only [State.ownCopy]
  repeat' split
  all_goals simp (maxDischargeDepth := 40) [*]

@[simp] theorem State.completed_within (h : s.within) (m : TxMsg) : (s.completed m).within := by
  simp only [State.completed]
  repeat' split
  all_goals simp (maxDischargeDepth := 40) [*]

@[simp] theorem State.complete_within (h : s.within) : s.complete.within := by
  simp only [State.complete]
  repeat' split
  all_goals simp (maxDischargeDepth := 40) [*]

@[simp] theorem State.mute_within (h : s.within) : s.mute.within := by
  simp only [State.mute]
  repeat' split
  all_goals simp (maxDischargeDepth := 40) [*]

@[simp] theorem State.rxOver_within (h : s.within) : s.rxOver.within := by
  simp only [State.rxOver]
  simp (maxDischargeDepth := 40) [*]

@[simp] theorem State.count_within (h : s.within) (f : LineRecord → LineRecord) : (s.count f).within := by
  simp only [State.count]
  simp (maxDischargeDepth := 40) [*]

@[simp] theorem State.reject_within (h : s.within) (r : Reception) : (s.reject r).within := by
  simp only [State.reject]
  repeat' split
  all_goals simp (maxDischargeDepth := 40) [*]

@[simp] theorem State.commit_within (h : s.within) (r : Replica) : (s.commit r).within := by
  simp only [State.commit]
  simp (maxDischargeDepth := 40) [*]

@[simp] theorem State.closeApply_within (h : s.within) : s.closeApply.within := by
  simp only [State.closeApply]
  simp (maxDischargeDepth := 40) [*]

@[simp] theorem State.gapFound_within (h : s.within) (k : Kind) (w : Word) : (s.gapFound k w).within := by
  simp only [State.gapFound]
  simp (maxDischargeDepth := 40) [*]

@[simp] theorem State.editDone_within (h : s.within) (m : EditMsg) (r : Result) (i : Nat) (l : List ItemId) :
    (s.editDone m r i l).within := by
  simp only [State.editDone]
  simp (maxDischargeDepth := 40) [*]

@[simp] theorem State.refuseEdit_within (h : s.within) (m : EditMsg) (r : Result) (i : Nat) : (s.refuseEdit m r
    i).within := by
  simp only [State.refuseEdit]
  simp (maxDischargeDepth := 40) [*]

@[simp] theorem State.acceptEdit_within (h : s.within) (m : EditMsg) (b : Batch) : (s.acceptEdit m b).within := by
  simp only [State.acceptEdit]
  first | (simp (maxDischargeDepth := 40) [*]; done) | simp +contextual (maxDischargeDepth := 40) [*, Emit.within_closed]

@[simp] theorem State.editNext_within (h : s.within) (row : RawOp → Bool) (m : EditMsg) (b : Batch) : (s.editNext
    row m b).within := by
  simp only [State.editNext]
  repeat' split
  all_goals simp (maxDischargeDepth := 40) [*]

@[simp] theorem State.applyEdit_within (h : s.within) (row : RawOp → Bool) : (s.applyEdit row).within := by
  simp only [State.applyEdit]
  repeat' split
  all_goals simp (maxDischargeDepth := 40) [*]

@[simp] theorem State.reportScheduler_within (h : s.within) (m : AirMsg) (o n : Replica) : (s.reportScheduler m o
    n).within := by
  simp only [State.reportScheduler]
  repeat' split
  all_goals first | (simp (maxDischargeDepth := 40) [*]; done) | simp +contextual (maxDischargeDepth := 40) [*, Emit.within_closed]

@[simp] theorem State.reportTiming_within (h : s.within) (m : AirMsg) (o n : Replica) : (s.reportTiming m o
    n).within := by
  simp only [State.reportTiming]
  repeat' split
  all_goals simp (maxDischargeDepth := 40) [*]

@[simp] theorem State.applyAir_within (h : s.within) (row : AirMsg → Bool) : (s.applyAir row).within := by
  simp only [State.applyAir]
  repeat' split
  all_goals simp (maxDischargeDepth := 40) [*]

@[simp] theorem State.freezeDone_within (h : s.within) : s.freezeDone.within := by
  simp only [State.freezeDone]
  repeat' split
  all_goals simp (maxDischargeDepth := 40) [*]

@[simp] theorem State.partReadDone_within (h : s.within) (k : Nat) : (s.partReadDone k).within := by
  simp only [State.partReadDone]
  repeat' split
  all_goals simp (maxDischargeDepth := 40) [*]

@[simp] theorem State.partWriteDone_within (h : s.within) (k : Nat) (c : List Byte) : (s.partWriteDone k c).within
    := by
  simp only [State.partWriteDone]
  repeat' split
  all_goals simp (maxDischargeDepth := 40) [*]

@[simp] theorem State.shadowCheckDone_within (h : s.within) : s.shadowCheckDone.within := by
  simp only [State.shadowCheckDone]
  repeat' split
  all_goals simp (maxDischargeDepth := 40) [*]

@[simp] theorem State.swapDone_within (h : s.within) : s.swapDone.within := by
  have k : ∀ t : State, t.within → (t.modSched Scheduler.adopted).within := fun t ht =>
    State.modSched_within ht (by simp) (by simp) (by simp)
  simp only [State.swapDone]
  repeat' split
  all_goals simp (maxDischargeDepth := 40) [*]

@[simp] theorem State.requestDone_within (h : s.within) : s.requestDone.within := by
  simp only [State.requestDone]
  simp (maxDischargeDepth := 40) [*]

@[simp] theorem State.refuse_within (h : s.within) (k : Option ReqKind) (r : RefuseReason) (d : RefuseDetail) :
    (s.refuse k r d).within := by
  simp only [State.refuse]
  simp (maxDischargeDepth := 40) [*]

@[simp] theorem State.offer_within (h : s.within) (k : ReqKind) (d : RefuseDetail) (m : OutMsg) : (s.offer k d
    m).within := by
  simp only [State.offer]
  repeat' split
  all_goals simp (maxDischargeDepth := 40) [*]

@[simp] theorem State.airRequest_within (h : s.within) (k : ReqKind) (d : RefuseDetail) (l : List (Bool ×
    RefuseReason)) (m : Option AirMsg) : (s.airRequest k d l m).within := by
  simp only [State.airRequest]
  repeat' split
  all_goals simp (maxDischargeDepth := 40) [*]

@[simp] theorem State.propose_within (h : s.within) (f : List Byte) : (s.propose f).within := by
  simp only [State.propose]
  repeat' split
  all_goals simp (maxDischargeDepth := 40) [*]

@[simp] theorem State.yieldOffer_within (h : s.within) : s.yieldOffer.within := by
  simp only [State.yieldOffer]
  repeat' split
  all_goals simp (maxDischargeDepth := 40) [*]

@[simp] theorem State.storeRead_within (h : s.within) (op : StoreOp) : (s.storeRead op).within := by
  simp only [State.storeRead]
  simp (maxDischargeDepth := 40) [*]

end Sys2Proof.Machine
end

