-- ==== Sys2Proof/Laws/Commands.lean ====
section
/-! SUPPORT. The shapes that the commands share (a command with real time, a command in RUN, a reception, a request): what each
comes to where its condition holds, and what each keeps. -/

namespace Sys2Proof.Machine

variable {s : State}

/-! ## Answers -/

@[simp] theorem State.done_eq_next {t : State} : s.done = .next t ↔ s.followLights = t := by
  simp [State.done]

theorem State.done_runs (s : State) : Runs s.done := ⟨_, rfl⟩

/-- With gallery time not usable the light lines stay (R102). -/
theorem State.followLights_unusable (h : s.usable = false) : s.followLights = s := by
  simp [State.followLights, h]

/-! ## Where a command acts -/

theorem State.live_reset (h : s.run = .reset) (d : Nat) (f : State → State) : s.live d f = s := by
  simp [State.live, h]

theorem State.live_run (h : s.run = .run) (d : Nat) (f : State → State) : s.live d f = f (s.elapse d) := by
  simp [State.live, h]

theorem State.inRun_reset (h : s.run = .reset) (d : Nat) (f : State → State) : s.inRun d f = s :=
  State.live_reset h _ _

theorem State.inRun_run (h : s.run = .run) (d : Nat) (f : State → State) : s.inRun d f = f (s.elapse d) := by
  simp [State.inRun, State.live, h, State.isRun]

theorem State.inRun_start (h : s.run = .start) (d : Nat) (f : State → State) : s.inRun d f = s.elapse d := by
  simp [State.inRun, State.live, h, State.isRun]

theorem State.reception_reset (h : s.run = .reset) (d : Nat) (f : State → State) : s.reception d f = s :=
  State.live_reset h _ _

/-- A reception whose delimiter came in RUN with this station silent (R138). -/
theorem State.reception_listens (h : s.listens) (d : Nat) (f : State → State) : s.reception d f = f (s.elapse d) := by
  simp [State.reception, State.live, State.isRun, h.1, h.2]

/-- An accepted message bears this station's own number where its source is this station (R140). -/
theorem State.clashes_of_good {r : Reception} {n : StationNo} {b : Byte} {m : RxMsg} (h : s.classify r = .good n b m)
    (hn : n ≠ s.straps.number) : s.clashes r = false := by
  unfold State.classify at h
  split at h
  · cases h
  · next d src k len x rest hh =>
    repeat' split at h
    all_goals try cases h
    rename_i hp _ _ _ _ _ _ hf _
    have hp : rxHeaderPasses r = true := by simpa using hp
    have hf : src.toNat < 32 := by
      simp only [Bool.not_eq_true, Bool.or_eq_false_iff, decide_eq_false_iff_not] at hf
      omega
    have ho := s.straps.number.isLt
    have hs : rxSource r = some src := by simp [rxSource, hp, hh]
    rw [State.clashes, hs]
    simp only [Option.some.injEq, decide_eq_false_iff_not]
    intro he
    refine hn (Fin.ext ?_)
    have : src.toNat = s.straps.number.val := by
      rw [he]
      simp only [byteOf, BitVec.toNat_ofNat]
      omega
    simp only [Fin.val_ofNat, this]
    omega

/-- A message accepted, of the kind the command acts on, from another station. -/
theorem State.receive_good_clash (h : s.listens) (d : Nat)
    {r : Reception} {n : StationNo} {b : Byte} {m : RxMsg} {act : StationNo → Byte → RxMsg → Option (State → State)}
    {f : State → State} (hc : s.classify r = .good n b m) (hf : act n b m = some f) (ho : s.clashes r = false) :
    s.receive d r act = f (s.elapse d).rxOver := by
  have hc' : (s.elapse d).classify r = .good n b m := hc
  have ho' : (s.elapse d).rxOver.clashes r = false := ho
  rw [State.receive, State.reception_listens h]
  simp only [hc', hf, ho', Bool.false_eq_true, if_false]

/-- The head request is handled by the command of its kind (R195). -/
theorem State.handle_head (h : s.run ≠ .reset) (hi : s.port.inHand = false) {r : List Byte} {q : List (List Byte)}
    (hq : s.port.requests = r :: q) {k : ReqKind} (hk : reqKind r = some k) (f : List Byte → State → State) :
    s.handle k f = f r.tail s := by
  simp [State.handle, h, hi, hq, hk]

/-- A message of another station accepted, of the kind the command acts on. -/
theorem State.receive_heard (d : Nat) {r : Reception} {n : StationNo} {b : Byte} {m : RxMsg}
    {act : StationNo → Byte → RxMsg → Option (State → State)} {f : State → State} (h : s.hears r n b m)
    (hf : act n b m = some f) : s.receive d r act = f (s.elapse d).rxOver :=
  State.receive_good_clash h.1 d h.2.1 hf (State.clashes_of_good h.2.1 h.2.2)

/-- The head request, of kind `k` with the fields `f`, is handled. -/
theorem State.handle_asked {k : ReqKind} {f : List Byte} (h : s.asked k f) (act : List Byte → State → State) :
    s.handle k act = act f s := by
  obtain ⟨hr, hi, r, q, hq, hk, hf⟩ := h
  rw [State.handle_head (by simp [hr]) hi hq hk, hf]

/-! ## Frames of the shapes -/

theorem State.live_same {ps : List Part} (hc : Part.clock ∈ ps) {d : Nat} {f : State → State} (hf : ∀ t, SameBut ps t (f t)) :
    SameBut ps s (s.live d f) := by
  unfold State.live
  split
  · exact .refl _ _
  · exact (hf _).andThen ((State.elapse_frame s d).mono (by simpa using hc)) (fun _ h => h)

theorem State.inRun_same {ps : List Part} (hc : Part.clock ∈ ps) {d : Nat} {f : State → State}
    (hf : ∀ t, SameBut ps t (f t)) : SameBut ps s (s.inRun d f) :=
  State.live_same hc fun t => by
    split
    · exact hf t
    · exact .refl _ _

theorem State.reception_same {ps : List Part} (hc : Part.clock ∈ ps) (hl : Part.line ∈ ps) {d : Nat} {f : State → State}
    (hf : ∀ t, SameBut ps t (f t)) : SameBut ps s (s.reception d f) :=
  State.live_same hc fun t => by
    split
    · exact hf t
    · simp [hl]

theorem State.receive_same {ps : List Part} (hc : Part.clock ∈ ps)
    (hm : ∀ p ∈ [Part.tb, .store, .apply, .sched, .out, .line, .sync, .pair, .port], p ∈ ps) {d : Nat} {r : Reception}
    {act : StationNo → Byte → RxMsg → Option (State → State)}
    (hf : ∀ n b m g, act n b m = some g → ∀ t, SameBut ps t (g t)) : SameBut ps s (s.receive d r act) := by
  have hl : Part.line ∈ ps := hm _ (by simp)
  refine State.reception_same hc hl fun t => ?_
  split
  · split
    · next g hg =>
      refine SameBut.trans ?_ (hf _ _ _ g hg _)
      split
      · rw [State.mute_same (by simpa using hm), State.rxOver_same (by simpa using hl)]
        exact .refl _ _
      · rw [State.rxOver_same (by simpa using hl)]
        exact .refl _ _
    · exact .refl _ _
  all_goals exact (State.reject_same r (by simpa using hm)).mpr (.refl _ _)

theorem State.handle_same {ps : List Part} {k : ReqKind} {f : List Byte → State → State} (hf : ∀ b t, SameBut ps t (f b t)) :
    SameBut ps s (s.handle k f) := by
  unfold State.handle
  repeat' split
  all_goals first | exact .refl _ _ | exact hf _ _

/-! ## The bounds through the shapes -/

theorem State.resetTo_within (rs : RunState) (pins : Straps) (q : List Instr) : (State.resetTo rs pins q).within :=
  ⟨⟨Nat.zero_le _, Nat.zero_le _, Nat.zero_le _⟩, ⟨Nat.zero_le _, Nat.zero_le _, .nil⟩, fun c => by cases c <;> exact Nat.zero_le _⟩

theorem State.resetNow_within (s : State) (rs : RunState) (pins : Straps) : (s.resetNow rs pins).within :=
  State.resetTo_within rs pins s.pending

theorem State.live_within (h : s.within) {d : Nat} {f : State → State} (hf : ∀ t : State, t.within → (f t).within) :
    (s.live d f).within := by
  unfold State.live
  split
  · exact h
  · exact hf _ (by simpa using h)

theorem State.inRun_within (h : s.within) {d : Nat} {f : State → State} (hf : ∀ t : State, t.within → (f t).within) :
    (s.inRun d f).within := State.live_within h fun t ht => by split <;> simp [*]

theorem State.reception_within (h : s.within) {d : Nat} {f : State → State} (hf : ∀ t : State, t.within → (f t).within) :
    (s.reception d f).within := State.live_within h fun t ht => by
  repeat' split
  all_goals simp [*]

theorem State.receive_within (h : s.within) {d : Nat} {r : Reception}
    {act : StationNo → Byte → RxMsg → Option (State → State)}
    (hf : ∀ n b m g, act n b m = some g → ∀ t : State, t.within → (g t).within) : (s.receive d r act).within :=
  State.reception_within h fun t ht => by
    repeat' split
    all_goals first
      | exact ht
      | exact State.reject_within ht r
      | (apply hf _ _ _ _ (by assumption); simp [*])

theorem State.handle_within (h : s.within) {k : ReqKind} {f : List Byte → State → State}
    (hf : ∀ b (t : State), t.within → (f b t).within) : (s.handle k f).within := by
  unfold State.handle
  repeat' split
  all_goals simp [*]

theorem State.wholeTransfer_within (h : s.within) {f : Port → Port} (hf : ∀ p : Port, p.within → (f p).within) :
    (s.wholeTransfer f).within := by
  refine ⟨?_, h.2⟩
  simp only [State.wholeTransfer, State.modPort_port]
  split
  · exact h.1
  · exact hf _ h.1

theorem State.beginTransfer_within (h : s.within) {f : Port → Port} (hf : ∀ p : Port, p.within → (f p).within) :
    (s.beginTransfer f).within := by
  refine ⟨?_, h.2⟩
  simp only [State.beginTransfer, State.modPort_port]
  split
  · exact h.1
  · split
    · exact h.1
    · exact hf _ h.1

theorem State.endTransfer_within (h : s.within) {b : Byte} {f : Port → Port} (hf : ∀ p : Port, p.within → (f p).within) :
    (s.endTransfer b f).within := by
  refine ⟨?_, h.2⟩
  have hp : s.port.within := h.1
  simp only [State.endTransfer, State.modPort_port]
  repeat' split
  all_goals first
    | exact hp
    | exact hf _ hp

theorem Port.takeRequest_within {p : Port} (h : p.within) (n : Byte) (bs : List Byte) : (p.takeRequest n bs).within := by
  unfold Port.takeRequest
  split
  · exact h
  · next hl => exact ⟨h.1, h.2.1, by simp only [List.length_append, List.length_singleton]; omega⟩

theorem Port.beginRead_within {p : Port} (h : p.within) : p.beginRead.within := by
  unfold Port.beginRead
  split <;> exact h

theorem Port.lastByte_within {p : Port} (h : p.within) : p.lastByte.within := by
  unfold Port.lastByte
  split
  · exact ⟨Nat.le_trans (by simp) h.1, h.2⟩
  · exact ⟨h.1, Nat.le_trans (by simp) h.2.1, h.2.2⟩
  all_goals exact h

theorem Port.readNotice_within {p : Port} (h : p.within) (b : Bool) : (p.readNotice b).within := by
  unfold Port.readNotice
  split
  · exact Port.lastByte_within (Port.beginRead_within h)
  · exact Port.beginRead_within h

theorem State.readRequest_within {α : Type} (h : s.within) {k : ReqKind} {f : List Byte} {a : Option α} {g : α → State}
    (hf : ∀ a, (g a).within) : (s.readRequest k f a g).within := by
  unfold State.readRequest
  repeat' split
  all_goals simp [*]

/-! ## The places of the apply queue through the shapes -/

theorem State.resetTo_placed (rs : RunState) (pins : Straps) (q : List Instr) : (State.resetTo rs pins q).placed :=
  ⟨Nat.zero_le _, (by intro h; cases h), by intro h; cases h⟩

theorem State.live_placed (h : s.placed) {d : Nat} {f : State → State} (hf : ∀ t : State, t.placed → (f t).placed) :
    (s.live d f).placed := by
  unfold State.live
  split
  · exact h
  · exact hf _ (by simpa using h)

theorem State.inRun_placed (h : s.placed) {d : Nat} {f : State → State} (hf : ∀ t : State, t.placed → (f t).placed) :
    (s.inRun d f).placed := State.live_placed h fun t ht => by split <;> simp [*]

theorem State.reception_placed (h : s.placed) {d : Nat} {f : State → State}
    (hf : ∀ t : State, t.placed → t.line.transmitting = false → (f t).placed) : (s.reception d f).placed :=
  State.live_placed h fun t ht => by
    split
    · next hr => exact hf t ht (State.placed_silent ht hr.2)
    · simp [ht]

theorem State.receive_placed (h : s.placed) {d : Nat} {r : Reception}
    {act : StationNo → Byte → RxMsg → Option (State → State)}
    (hf : ∀ n b m g, act n b m = some g → ∀ t : State, t.placed → (g t).placed) : (s.receive d r act).placed :=
  State.reception_placed h fun t ht hs => by
    have ho : t.rxOver.line.transmitting = false := hs
    repeat' split
    all_goals first
      | exact ht
      | exact State.reject_placed ht hs r
      | (apply hf _ _ _ _ (by assumption); simp [*])

theorem State.handle_placed (h : s.placed) {k : ReqKind} {f : List Byte → State → State}
    (hf : ∀ b (t : State), t.placed → (f b t).placed) : (s.handle k f).placed := by
  unfold State.handle
  repeat' split
  all_goals simp [*]

theorem State.resetNow_placed (s : State) (rs : RunState) (pins : Straps) : (s.resetNow rs pins).placed :=
  State.resetTo_placed rs pins s.pending

theorem State.wholeTransfer_placed (h : s.placed) (f : Port → Port) : (s.wholeTransfer f).placed := by
  simp [State.wholeTransfer, h]

theorem State.beginTransfer_placed (h : s.placed) (f : Port → Port) : (s.beginTransfer f).placed := by
  simp [State.beginTransfer, h]

theorem State.endTransfer_placed (h : s.placed) (b : Byte) (f : Port → Port) : (s.endTransfer b f).placed := by
  simp [State.endTransfer, h]

theorem State.readRequest_placed {α : Type} (h : s.placed) {k : ReqKind} {f : List Byte} {a : Option α} {g : α → State}
    (hf : ∀ a, (g a).placed) : (s.readRequest k f a g).placed := by
  unfold State.readRequest
  repeat' split
  all_goals simp [*]

/-! ## The laws of the replica through the shapes -/

theorem State.resetTo_lawful (rs : RunState) (pins : Straps) (q : List Instr) : (State.resetTo rs pins q).lawful :=
  ⟨⟨Replica.lawful_empty, Replica.lawful_empty⟩, fun _ e => by cases e⟩

theorem State.resetNow_lawful (s : State) (rs : RunState) (pins : Straps) : (s.resetNow rs pins).lawful :=
  State.resetTo_lawful rs pins s.pending

theorem State.live_lawful (h : s.lawful) {d : Nat} {f : State → State} (hf : ∀ t : State, t.lawful → (f t).lawful) :
    (s.live d f).lawful := by
  unfold State.live
  split
  · exact h
  · exact hf _ (by simpa using h)

theorem State.inRun_lawful (h : s.lawful) {d : Nat} {f : State → State} (hf : ∀ t : State, t.lawful → (f t).lawful) :
    (s.inRun d f).lawful := State.live_lawful h fun t ht => by split <;> simp [*]

theorem State.reception_lawful (h : s.lawful) {d : Nat} {f : State → State} (hf : ∀ t : State, t.lawful → (f t).lawful) :
    (s.reception d f).lawful := State.live_lawful h fun t ht => by
  repeat' split
  all_goals simp [*]

theorem State.receive_lawful (h : s.lawful) {d : Nat} {r : Reception}
    {act : StationNo → Byte → RxMsg → Option (State → State)}
    (hf : ∀ n b m g, act n b m = some g → ∀ t : State, t.lawful → (g t).lawful) : (s.receive d r act).lawful :=
  State.reception_lawful h fun t ht => by
    repeat' split
    all_goals first
      | exact ht
      | exact State.reject_lawful ht r
      | (apply hf _ _ _ _ (by assumption); simp [*])

theorem State.handle_lawful (h : s.lawful) {k : ReqKind} {f : List Byte → State → State}
    (hf : ∀ b (t : State), t.lawful → (f b t).lawful) : (s.handle k f).lawful := by
  unfold State.handle
  repeat' split
  all_goals simp [*]

theorem State.readRequest_lawful {α : Type} (h : s.lawful) {k : ReqKind} {f : List Byte} {a : Option α} {g : α → State}
    (hf : ∀ a, (g a).lawful) : (s.readRequest k f a g).lawful := by
  unfold State.readRequest
  repeat' split
  all_goals simp [*]

end Sys2Proof.Machine
end

