-- ==== Sys2Proof/Laws/PerInstr.lean ====
section
/-! SUPPORT. What holds of every command as syntax, command by command: a well-formed one carries no more bytes than a message
or a request has, and no word of the opcode table spells one. -/

namespace Sys2Proof.Laws.Operands

/-- The bytes a command carries into a buffer of the part: a reception's or a request's. -/
def carried : Instr → Nat
  | .receiveOrderedMessage _ r | .receiveMark _ r | .receivePresence _ r | .receiveAsk _ r | .receivePartOpening _ r
  | .receivePart _ r | .receiveReady _ r | .receiveRelay _ r | .receiveYield _ r | .badReception _ r => r.bytes.length
  | .requestWrite _ b => b.length
  | _ => 0

def Statement (i : Instr) : Prop := (i.wf = true → carried i ≤ 264) ∧ ∀ nbits w, decodeTableWord nbits w ≠ some i

/-- A reception's bound. -/
theorem of_reception {r : Reception} (h : r.wf = true) : r.bytes.length ≤ 264 := by simpa [Reception.wf] using h

/-- A request's bound. -/
theorem of_request {n : WriteStretch} {b : List Byte} (h : requestWf n b = true) : b.length ≤ 264 := by
  cases n <;> simp only [requestWf, decide_eq_true_eq, List.isEmpty_iff] at h
  case begins => simp [h]
  all_goals omega

theorem unspelt (i : Instr) (nbits w : Nat) : decodeTableWord nbits w ≠ some i := by simp [decodeTableWord]

theorem resetPin : Statement .resetPin := ⟨fun _ => Nat.zero_le _, unspelt _⟩
theorem resetEnd (pins : Straps) : Statement (.resetEnd pins) := ⟨fun _ => Nat.zero_le _, unspelt _⟩
theorem referencePulse (p : Pulse) : Statement (.referencePulse p) := ⟨fun _ => Nat.zero_le _, unspelt _⟩
theorem refLost (p : Pulse) : Statement (.refLost p) := ⟨fun _ => Nat.zero_le _, unspelt _⟩
theorem flywheelPulse (p : Pulse) : Statement (.flywheelPulse p) := ⟨fun _ => Nat.zero_le _, unspelt _⟩
theorem silence : Statement .silence := ⟨fun _ => Nat.zero_le _, unspelt _⟩
theorem acquireTimeout : Statement .acquireTimeout := ⟨fun _ => Nat.zero_le _, unspelt _⟩
theorem holdoverExpired : Statement .holdoverExpired := ⟨fun _ => Nat.zero_le _, unspelt _⟩
theorem recoveryEnds (resource : Fin 16) : Statement (.recoveryEnds resource) := ⟨fun _ => Nat.zero_le _, unspelt _⟩
theorem scan (dt : Nat) : Statement (.scan dt) := ⟨fun _ => Nat.zero_le _, unspelt _⟩
theorem itemEndCancel : Statement .itemEndCancel := ⟨fun _ => Nat.zero_le _, unspelt _⟩
theorem shadowRecordsExpire : Statement .shadowRecordsExpire := ⟨fun _ => Nat.zero_le _, unspelt _⟩
theorem pipStarts (dt : Nat) (line : Fin 2) : Statement (.pipStarts dt line) := ⟨fun _ => Nat.zero_le _, unspelt _⟩
theorem pipEnds (dt : Nat) (line : Fin 2) : Statement (.pipEnds dt line) := ⟨fun _ => Nat.zero_le _, unspelt _⟩
theorem warnPoint : Statement .warnPoint := ⟨fun _ => Nat.zero_le _, unspelt _⟩
theorem expiryPoint : Statement .expiryPoint := ⟨fun _ => Nat.zero_le _, unspelt _⟩
theorem endingRecordDropped : Statement .endingRecordDropped := ⟨fun _ => Nat.zero_le _, unspelt _⟩
theorem peerAbsent (peer : StationNo) : Statement (.peerAbsent peer) := ⟨fun _ => Nat.zero_le _, unspelt _⟩
theorem founded : Statement .founded := ⟨fun _ => Nat.zero_le _, unspelt _⟩
theorem askWaitExpires : Statement .askWaitExpires := ⟨fun _ => Nat.zero_le _, unspelt _⟩
theorem askRetryExpires : Statement .askRetryExpires := ⟨fun _ => Nat.zero_le _, unspelt _⟩
theorem responseWaitExpires : Statement .responseWaitExpires := ⟨fun _ => Nat.zero_le _, unspelt _⟩
theorem gapTimeout : Statement .gapTimeout := ⟨fun _ => Nat.zero_le _, unspelt _⟩
theorem yieldFailed : Statement .yieldFailed := ⟨fun _ => Nat.zero_le _, unspelt _⟩
theorem markCapture (dt : Nat) : Statement (.markCapture dt) := ⟨fun _ => Nat.zero_le _, unspelt _⟩
theorem transmitAttempt (dt idle : Nat) : Statement (.transmitAttempt dt idle) := ⟨fun _ => Nat.zero_le _, unspelt _⟩
theorem collision (dt : Nat) : Statement (.collision dt) := ⟨fun _ => Nat.zero_le _, unspelt _⟩
theorem backoffExpires (dt idle : Nat) : Statement (.backoffExpires dt idle) := ⟨fun _ => Nat.zero_le _, unspelt _⟩
theorem transmissionComplete (dt : Nat) : Statement (.transmissionComplete dt) := ⟨fun _ => Nat.zero_le _, unspelt _⟩
theorem receiveOrderedMessage (dt : Nat) (rx : Reception) : Statement (.receiveOrderedMessage dt rx) :=
  ⟨of_reception, unspelt _⟩
theorem receiveMark (dt : Nat) (rx : Reception) : Statement (.receiveMark dt rx) := ⟨of_reception, unspelt _⟩
theorem receivePresence (dt : Nat) (rx : Reception) : Statement (.receivePresence dt rx) := ⟨of_reception, unspelt _⟩
theorem receiveAsk (dt : Nat) (rx : Reception) : Statement (.receiveAsk dt rx) := ⟨of_reception, unspelt _⟩
theorem receivePartOpening (dt : Nat) (rx : Reception) : Statement (.receivePartOpening dt rx) :=
  ⟨of_reception, unspelt _⟩
theorem receivePart (dt : Nat) (rx : Reception) : Statement (.receivePart dt rx) := ⟨of_reception, unspelt _⟩
theorem receiveReady (dt : Nat) (rx : Reception) : Statement (.receiveReady dt rx) := ⟨of_reception, unspelt _⟩
theorem receiveRelay (dt : Nat) (rx : Reception) : Statement (.receiveRelay dt rx) := ⟨of_reception, unspelt _⟩
theorem receiveYield (dt : Nat) (rx : Reception) : Statement (.receiveYield dt rx) := ⟨of_reception, unspelt _⟩
theorem badReception (dt : Nat) (rx : Reception) : Statement (.badReception dt rx) := ⟨of_reception, unspelt _⟩
theorem storeGrant : Statement .storeGrant := ⟨fun _ => Nat.zero_le _, unspelt _⟩
theorem insert : Statement .insert := ⟨fun _ => Nat.zero_le _, unspelt _⟩
theorem delete : Statement .delete := ⟨fun _ => Nat.zero_le _, unspelt _⟩
theorem move : Statement .move := ⟨fun _ => Nat.zero_le _, unspelt _⟩
theorem amend : Statement .amend := ⟨fun _ => Nat.zero_le _, unspelt _⟩
theorem addCue : Statement .addCue := ⟨fun _ => Nat.zero_le _, unspelt _⟩
theorem dropCue : Statement .dropCue := ⟨fun _ => Nat.zero_le _, unspelt _⟩
theorem setOut : Statement .setOut := ⟨fun _ => Nat.zero_le _, unspelt _⟩
theorem revive : Statement .revive := ⟨fun _ => Nat.zero_le _, unspelt _⟩
theorem standby (dt : Nat) : Statement (.standby dt) := ⟨fun _ => Nat.zero_le _, unspelt _⟩
theorem take (dt : Nat) : Statement (.take dt) := ⟨fun _ => Nat.zero_le _, unspelt _⟩
theorem hold (dt : Nat) : Statement (.hold dt) := ⟨fun _ => Nat.zero_le _, unspelt _⟩
theorem resume (dt : Nat) : Statement (.resume dt) := ⟨fun _ => Nat.zero_le _, unspelt _⟩
theorem skip (dt : Nat) : Statement (.skip dt) := ⟨fun _ => Nat.zero_le _, unspelt _⟩
theorem close (dt : Nat) : Statement (.close dt) := ⟨fun _ => Nat.zero_le _, unspelt _⟩
theorem freezeCopy : Statement .freezeCopy := ⟨fun _ => Nat.zero_le _, unspelt _⟩
theorem partRead : Statement .partRead := ⟨fun _ => Nat.zero_le _, unspelt _⟩
theorem partWrite : Statement .partWrite := ⟨fun _ => Nat.zero_le _, unspelt _⟩
theorem shadowCheck : Statement .shadowCheck := ⟨fun _ => Nat.zero_le _, unspelt _⟩
theorem bankSwap : Statement .bankSwap := ⟨fun _ => Nat.zero_le _, unspelt _⟩
theorem rearmRead (dt : Nat) : Statement (.rearmRead dt) := ⟨fun _ => Nat.zero_le _, unspelt _⟩
theorem takeoverRead (dt : Nat) : Statement (.takeoverRead dt) := ⟨fun _ => Nat.zero_le _, unspelt _⟩
theorem projectionRead : Statement .projectionRead := ⟨fun _ => Nat.zero_le _, unspelt _⟩
theorem itemReadComplete : Statement .itemReadComplete := ⟨fun _ => Nat.zero_le _, unspelt _⟩
theorem orderReadComplete : Statement .orderReadComplete := ⟨fun _ => Nat.zero_le _, unspelt _⟩
theorem requestWrite (length : WriteStretch) (bytes : List Byte) : Statement (.requestWrite length bytes) :=
  ⟨of_request, unspelt _⟩
theorem noticeRead (part : ReadStretch) : Statement (.noticeRead part) := ⟨fun _ => Nat.zero_le _, unspelt _⟩
theorem portStatusRead : Statement .portStatusRead := ⟨fun _ => Nat.zero_le _, unspelt _⟩
theorem portControlWrite (enables : WriteStretch) : Statement (.portControlWrite enables) := ⟨fun _ => Nat.zero_le _, unspelt _⟩
theorem invalidTransfer (first : Byte) (rest : List Byte) : Statement (.invalidTransfer first rest) :=
  ⟨fun _ => Nat.zero_le _, unspelt _⟩
theorem configure (dt : Nat) : Statement (.configure dt) := ⟨fun _ => Nat.zero_le _, unspelt _⟩
theorem restart (pins : Straps) : Statement (.restart pins) := ⟨fun _ => Nat.zero_le _, unspelt _⟩
theorem propose : Statement .propose := ⟨fun _ => Nat.zero_le _, unspelt _⟩
theorem standbyRequest : Statement .standbyRequest := ⟨fun _ => Nat.zero_le _, unspelt _⟩
theorem takeRequest : Statement .takeRequest := ⟨fun _ => Nat.zero_le _, unspelt _⟩
theorem holdRequest : Statement .holdRequest := ⟨fun _ => Nat.zero_le _, unspelt _⟩
theorem resumeRequest : Statement .resumeRequest := ⟨fun _ => Nat.zero_le _, unspelt _⟩
theorem skipRequest : Statement .skipRequest := ⟨fun _ => Nat.zero_le _, unspelt _⟩
theorem closeRequest : Statement .closeRequest := ⟨fun _ => Nat.zero_le _, unspelt _⟩
theorem yieldRequest : Statement .yieldRequest := ⟨fun _ => Nat.zero_le _, unspelt _⟩
theorem relayRequest : Statement .relayRequest := ⟨fun _ => Nat.zero_le _, unspelt _⟩
theorem readItem : Statement .readItem := ⟨fun _ => Nat.zero_le _, unspelt _⟩
theorem readOrder : Statement .readOrder := ⟨fun _ => Nat.zero_le _, unspelt _⟩
theorem readPeer : Statement .readPeer := ⟨fun _ => Nat.zero_le _, unspelt _⟩
theorem readTiming : Statement .readTiming := ⟨fun _ => Nat.zero_le _, unspelt _⟩
theorem readArmed : Statement .readArmed := ⟨fun _ => Nat.zero_le _, unspelt _⟩
theorem unknownRequest : Statement .unknownRequest := ⟨fun _ => Nat.zero_le _, unspelt _⟩

end Sys2Proof.Laws.Operands
end

