-- ==== Sys2Proof/Laws/Pulse.lean ====
section
/-! SUPPORT. What a frame pulse leaves of the timebase: the blocks move none of the reference's own fields. -/

namespace Sys2Proof.Machine

variable {s t : State}

/-! ## The order of the blocks -/

theorem mem_firsts {b : Block} {l : List Block} : b ∈ firsts l ↔ b ∈ l := by
  induction l with
  | nil => simp [firsts]
  | cons a r ih =>
    simp only [firsts, List.mem_cons, List.mem_filter, ih, decide_eq_true_eq]
    by_cases h : b = a <;> simp [h]

theorem firsts_nodup (l : List Block) : (firsts l).Nodup := by
  induction l with
  | nil => simp [firsts]
  | cons a r ih =>
    simp only [firsts, List.nodup_cons, List.mem_filter, decide_eq_true_eq]
    exact ⟨fun h => h.2 rfl, ih.sublist List.filter_sublist⟩

/-- Every block acts, and none twice. -/
theorem blockOrder_nodup (l : List Block) : (blockOrder l).Nodup := by
  refine List.nodup_append.mpr ⟨firsts_nodup l, List.Nodup.sublist List.filter_sublist (by decide), ?_⟩
  intro a ha c hc h
  subst h
  have := mem_firsts.mp ha
  simp [this] at hc

theorem mem_blockOrder (l : List Block) (b : Block) : b ∈ blockOrder l := by
  simp only [blockOrder, List.mem_append, mem_firsts, List.mem_filter]
  by_cases h : b ∈ l
  · exact Or.inl h
  · exact Or.inr ⟨by cases b <;> decide, by simp [h]⟩

/-! ## The reference's fields -/

/-- The reference's fields of the timebase. -/
def Timebase.sameReference (a b : Timebase) : Prop :=
  b.refLost = a.refLost ∧ b.lastPulse = a.lastPulse ∧ b.watchFrom = a.watchFrom ∧ b.counter = a.counter

theorem Timebase.sameReference_trans {a b c : Timebase} (h : a.sameReference b) (k : b.sameReference c) :
    a.sameReference c :=
  ⟨k.1.trans h.1, k.2.1.trans h.2.1, k.2.2.1.trans h.2.2.1, k.2.2.2.trans h.2.2.2⟩

theorem Timebase.sameReference_refl (a : Timebase) : a.sameReference a := ⟨rfl, rfl, rfl, rfl⟩

theorem State.sameReference_of_same {ps : List Part} (h : SameBut ps s t) (hp : Part.tb ∉ ps) :
    s.tb.sameReference t.tb := by
  have : t.tb = s.tb := h .tb hp
  rw [this]
  exact Timebase.sameReference_refl _

theorem State.usabilityChanged_tb : s.usabilityChanged.tb = s.tb := by
  have h : SameBut [.store, .sched, .out, .pair, .port] s s.usabilityChanged := by simp
  exact h .tb (by decide)

theorem State.lockTimers_reference : s.tb.sameReference s.lockTimers.tb := by
  simp only [State.lockTimers, State.silenceExpire, State.acquireExpire, State.holdoverExpire]
  repeat' split
  all_goals simp [Timebase.sameReference, State.postLock, State.post, State.usabilityChanged_tb]

theorem State.elect_reference : s.tb.sameReference s.elect.tb := by
  unfold State.elect
  split
  · have h : SameBut [.store, .sched, .out, .pair, .port]
        (s.modTb fun t => { t with source := true, lock := .locked, agree := 0, holdover := 0, followed := none }) s.elect := by
      simp [State.elect, *]
    have k : s.elect.tb = _ := h .tb (by decide)
    simp only [State.elect, *, if_true] at k
    rw [k]
    exact ⟨rfl, rfl, rfl, rfl⟩
  · exact Timebase.sameReference_refl _

theorem State.markDue_tb : s.markDue.tb = s.tb := by
  have h : SameBut [.line] s s.markDue := by simp
  exact h .tb (by decide)

theorem State.timebasePulse_reference : s.tb.sameReference s.timebasePulse.tb := by
  unfold State.timebasePulse
  simp only [State.markDue_tb]
  refine Timebase.sameReference_trans ?_ State.elect_reference
  refine Timebase.sameReference_trans ?_ State.lockTimers_reference
  split
  · exact Timebase.sameReference_refl _
  · exact ⟨rfl, rfl, rfl, rfl⟩

/-- Every block but the timebase unit leaves the timebase alone on a frame pulse. -/
theorem State.blockPulse_tb (v : Vector Bool 4) {b : Block} (hb : b ≠ .timebase) : (State.blockPulse v s b).tb = s.tb := by
  have h : SameBut [.store, .apply, .sched, .out, .timing, .line, .roster, .sync, .pair, .port] s
      (State.blockPulse v s b) := by
    cases b
    case timebase => exact absurd rfl hb
    all_goals simp [State.blockPulse]
  exact h .tb (by decide)

theorem State.blockPulse_timebase_tb (v : Vector Bool 4) : (State.blockPulse v s .timebase).tb = s.timebasePulse.tb :=
  (by simp [State.blockPulse] : SameBut [.out] s.timebasePulse (State.blockPulse v s .timebase)) .tb (by decide)

/-- No block moves the counter or the reference's fields on a frame pulse. -/
theorem State.blockPulse_reference (v : Vector Bool 4) (b : Block) : s.tb.sameReference (State.blockPulse v s b).tb := by
  by_cases hb : b = .timebase
  · rw [hb, State.blockPulse_timebase_tb]
    exact State.timebasePulse_reference
  · rw [State.blockPulse_tb v hb]
    exact Timebase.sameReference_refl _

theorem State.blocks_reference (p : Pulse) : s.tb.sameReference (s.blocks p).tb := by
  unfold State.blocks
  induction blockOrder p.order generalizing s with
  | nil => exact Timebase.sameReference_refl _
  | cons b l ih => exact Timebase.sameReference_trans (State.blockPulse_reference _ b) ih

/-- A station whose reference is lost does not become source (R53, R64). -/
theorem State.blocks_source (p : Pulse) (hr : s.tb.refLost = true) (hs : s.tb.source = false) :
    (s.blocks p).tb.source = false := by
  unfold State.blocks
  induction blockOrder p.order generalizing s with
  | nil => exact hs
  | cons b l ih =>
    refine ih ((State.blockPulse_reference _ b).1.trans hr) ?_
    by_cases hb : b = .timebase
    · rw [hb, State.blockPulse_timebase_tb]
      unfold State.timebasePulse
      simp only [State.markDue_tb]
      have hl : ∀ u : State, u.tb.source = false → u.lockTimers.tb.source = false := by
        intro u hu
        simp only [State.lockTimers, State.silenceExpire, State.acquireExpire, State.holdoverExpire]
        repeat' split
        all_goals simp [State.postLock, State.post, State.usabilityChanged_tb, hu]
      have he : ∀ u : State, u.tb.refLost = true → u.tb.source = false → u.elect.tb.source = false := by
        intro u hu hv
        simp [State.elect, State.elects, State.eligible, hu, hv]
      refine he _ ?_ (hl _ ?_)
      · refine (State.lockTimers_reference).1.trans ?_
        split <;> simp [hr]
      · split <;> simp [hs]
    · rw [State.blockPulse_tb _ hb]
      exact hs

end Sys2Proof.Machine
end

