-- ==== Sys2Proof/Tests/Slice0.lean ====
section
/-! SUPPORT. Tests: ill-formed commands refused by each check, figures and examples that the spec prints, and for every statement
a concrete state and operands that meet its hypotheses, with what the command answers there. -/

namespace Sys2Proof.Tests

open Sys2Proof.Machine

set_option Elab.async false

/-! ## Well-formedness, a term for each check -/

theorem test_wf_pulse : (Instr.referencePulse ⟨0, .replicate 4 false, [.timebase, .timebase]⟩).wf = false := by decide

theorem test_wf_reception : (Instr.badReception 0 ⟨.replicate 265 0, false⟩).wf = false := by decide +kernel

theorem test_wf_request : (Instr.requestWrite (.whole 1) [1, 2]).wf = false ∧ (Instr.requestWrite (.ends 1) [1, 2]).wf = false ∧
    (Instr.requestWrite .begins [1]).wf = false ∧ (Instr.requestWrite (.ends 2) [1, 2]).wf = true := by decide

theorem test_wf_invalidTransfer :
    (Instr.invalidTransfer 1 [0]).wf = false ∧ (Instr.invalidTransfer 2 []).wf = false ∧ (Instr.invalidTransfer 9 []).wf = true := by
  decide

/-! ## States to start from -/

/-- What a command answers, tested. -/
def ran (c : Instr) (s : State) (p : State → Bool) : Bool :=
  match exec c s with
  | .next t => p t
  | .fault _ | .refused _ => false

/-- Station 4, capable of both roles, in RUN and in step at frame 1,000, its time LOCKED. -/
def base : State :=
  { State.reset with
    run := .run, cfg := some Cfg.cleared, straps := ⟨4, true, true⟩, clock := 30000
    tb := { Timebase.reset with lock := .locked, counter := 1000, followed := some 2, lastPulse := some 0 }
    line := { Line.reset with rx := .inRun }, sync := { Sync.reset with step := .inStep } }

/-- A transmission of station `n` as it is received. -/
def rx (n : StationNo) (m : OutMsg) : Reception := ⟨(m.transmission n).drop 5, false⟩

def pulseAt (dt : Nat) : Pulse := ⟨dt, .replicate 4 false, []⟩

/-- A FIRE cue on resource 3, length 25. -/
def cue1 : Cue := ⟨0, 4, .fire 3 false (some ⟨25, none⟩), 0, 7⟩

def item1 : Item := ⟨0x0801, [65, 66], 500, none, false, false, false, .pending, [cue1]⟩
def item2 : Item := ⟨0x0802, [67], 250, some 200, false, false, false, .standingBy, []⟩
def item3 : Item := ⟨0x0803, [68], 100, none, false, false, false, .onAir ⟨900, false, 0, none⟩, []⟩

/-- LIVE with three items, version 2 and air count 5. -/
def live3 : Replica := ⟨2, 5, none, 0, [item1, item2, item3]⟩

def withLive (s : State) (r : Replica) : State := { s with store := { s.store with live := r, summary := r.summary } }

/-- The base with LIVE of three items, and `e` at the head of the apply queue holding the store. -/
def applying (e : QueueEntry) : State :=
  let s := withLive base live3
  { s with store := { s.store with holder := some .apply }, apply := { s.apply with queue := [e] } }

def edit (ops : List Byte) (count : Byte) : State := applying (.ordered 9 (.edit ⟨2, 9, 77, count, ops⟩))
def air (m : AirMsg) : State := applying (.ordered 9 (.air 5 m))

/-- The base with the message `m` in flight, transmitting from moment 30,000 or waiting. -/
def sending (c : TxClass) (m : OutMsg) (attempts : Nat) (on : Bool) : State :=
  { base with line := { base.line.setQueue c [⟨m, attempts, false⟩] with flight := some c, transmitting := on, attemptAt := 30000 } }

def peerIn (c : Presence) : PeerEntry := ⟨true, some c, some 900, 0⟩
def presence1 : Presence := ⟨true, true, true, false, false, .none, none, .solo, .inStep, .locked, ⟨2, 5, 0⟩, some 1000⟩

def withPeer (s : State) (n : StationNo) (e : PeerEntry) : State := s.modRoster (·.setPeer n e)

def stepped (y : Sync) : State := { base with sync := y }

/-- The head request is `r`. -/
def asking (r : List Byte) : State := { base with port := { base.port with requests := [r] } }

/-! ## Figures that the spec prints -/

/-- The check value of R127's message check over "123456789" (log 6). -/
theorem test_crc32 : crc32 [0x31, 0x32, 0x33, 0x34, 0x35, 0x36, 0x37, 0x38, 0x39] = 0xCBF43926#32 := by decide +kernel

/-- The second figures and the occupancies of R52 and R106. -/
theorem test_figures : (List.finRange 6).map secondFigure = [25, 30, 30, 50, 60, 60] ∧
    (List.map shortOccupancy [25, 30, 50, 60] = [3, 3, 5, 6]) ∧ List.map longOccupancy [25, 30, 50, 60] = [13, 15, 25, 30] := by
  decide

/-- R134's example: at frame 500,003, first attempts of stations 21, 3 and 13. -/
theorem test_backoff : backoffSlots .urgent 21 1 500003 = 25 ∧ backoffSlots .routine 3 1 500003 = 39 ∧
    backoffSlots .routine 13 1 500003 = 49 := by decide

/-! ## Steps, reset and the laws of every state -/

theorem test_step : step { base with pending := [.invalidTransfer 9 [], .resetPin] } = .next { base with pending := [.resetPin] } := rfl

theorem test_idle : step State.reset = .next State.reset := rfl

theorem test_resetPin : ran .resetPin base (fun t => decide (t.run = .reset ∧ t.tb = Timebase.reset ∧ t.straps = base.straps)) = true := by
  decide +kernel

theorem test_resetEnd : ran (.resetEnd ⟨7, true, false⟩) base (fun t => decide (t = { State.reset with straps := ⟨7, true, false⟩ })) = true := by
  decide +kernel

/-- ResetAndRestart, while the pin is asserted. -/
theorem test_held : Instr.silence ≠ .resetPin ∧ (∀ p, Instr.silence ≠ .resetEnd p) ∧
    exec .silence (State.resetTo .reset strapsLow []) = .next (State.resetTo .reset strapsLow []) :=
  ⟨by decide, (fun _ h => nomatch h), rfl⟩

/-- ResetAndRestart: RESTART alone, and with a field. -/
theorem test_restart : (asking [2]).run ≠ .reset ∧ (asking [2]).port.inHand = false ∧ (asking [2]).port.requests = [2] :: [] ∧
    reqKind [2] = some .restart ∧ ran (.restart strapsLow) (asking [2]) (fun t => decide (t = State.reset)) = true ∧
    ran (.restart strapsLow) (asking [2, 0]) (fun t => decide (t.run = .run ∧
      t.port.routine = [.reqRefused (some .restart) .badRequest .none])) = true := by decide +kernel

/-- ResetAndRestart: a request write that is running when the pin is asserted ends after its release, and is ignored. -/
theorem test_heldTransfer :
    let writing : State := { base with port := { base.port with transfer := some .requestWrite } }
    ran .resetPin writing (fun t => decide (t.port.transfer = some .ignored)) = true ∧
    ran (.resetEnd strapsLow) (writing.resetNow .reset strapsLow) (fun t => decide (t.port.transfer = some .ignored) &&
      ran (.requestWrite (.ends 2) [14, 9]) t fun u => decide (u.port = Port.reset)) = true ∧
    ran (.restart strapsLow) { asking [2] with port := { (asking [2]).port with transfer := some .portControl } }
      (fun t => decide (t.port.transfer = some .ignored)) = true ∧
    ran (.requestWrite .begins []) (State.resetTo .reset strapsLow []) (fun t => decide (t.port.transfer = some .ignored)) = true ∧
    ran (.requestWrite (.whole 1) [14]) (State.resetTo .reset strapsLow []) (fun t => t.port.requests.isEmpty) = true := by
  decide +kernel

/-- WithinKept, LightsKept. -/
theorem test_invariants : State.reset.within ∧ State.reset.lightsFollow ∧ step State.reset = .next State.reset :=
  ⟨⟨⟨by decide, by decide, by decide⟩, ⟨by decide, by decide⟩, fun c => by cases c <;> decide⟩,
    ⟨fun _ => rfl, fun h => absurd h (by decide)⟩, rfl⟩

theorem lawful_live3 : live3.lawful := by unfold Replica.lawful Item.lawful; decide +kernel

theorem lawful_empty : Replica.empty.lawful := by unfold Replica.lawful Item.lawful; decide +kernel

/-- WithinKept: the law of the replica at reset, and in a LIVE of three items that a SKIP changes. -/
theorem test_lawful : State.reset.lawful ∧ (air (.skip 0x0801)).lawful ∧
    ran (.skip 0) (air (.skip 0x0801)) (fun t => decide (t.store.live.items.length = 3)) = true :=
  ⟨⟨⟨lawful_empty, lawful_empty⟩, fun _ e => by cases e⟩,
    ⟨⟨lawful_live3, lawful_empty⟩, fun _ e => by cases e⟩, by decide +kernel⟩

/-- An ordered message going out with its place reserved. -/
def reserving : State :=
  let s := sending .urgent (.air 5 (.skip 1)) 0 true
  { s with line := { s.line with rx := .none }, apply := { s.apply with reserved := true } }

/-- WithinKept: nothing reserved, a place reserved, and the place taken. -/
theorem test_placed : State.reset.placed ∧ reserving.placed ∧
    ran (.transmissionComplete 1) reserving (fun t => !t.apply.reserved && decide (t.apply.queue.length = 1)) = true :=
  ⟨⟨Nat.zero_le 8, (by intro h; cases h), by intro h; cases h⟩,
    ⟨(by decide : 0 + 1 ≤ 8), (fun _ => rfl), fun _ => ⟨by decide, _, rfl, fun _ => rfl⟩⟩, by decide +kernel⟩

/-- WritersOfConfigLiveAndCounter. -/
theorem test_fixed : exec .silence base = .next base ∧ Instr.silence ≠ .resetPin ∧ (∀ p, Instr.silence ≠ .resetEnd p) ∧
    (∀ p, Instr.silence ≠ .restart p) ∧ ∀ d, Instr.silence ≠ .configure d :=
  ⟨rfl, by decide, (fun _ h => nomatch h), (fun _ h => nomatch h), (fun _ h => nomatch h)⟩

/-- WritersOfConfigLiveAndCounter: an applied message changes LIVE, a pulse the counter. -/
theorem test_writers : ran (.skip 0) (air (.skip 0x0801)) (fun t => decide (t.store.live ≠ (air (.skip 0x0801)).store.live)) = true ∧
    ran (.referencePulse (pulseAt 120000000)) base (fun t => decide (t.tb.counter ≠ base.tb.counter)) = true := by decide +kernel

/-! ## Frame pulses and gallery time -/

/-- ReferenceAndFlywheel: at half a nominal period a pulse counts, one unit before it is ignored. -/
theorem test_referencePulse : base.run = .run ∧ base.tb.refLost = false ∧
    (∀ m, base.tb.lastPulse = some m → nominalPeriod base.config.rate ≤ 2 * (base.clock + 59970000 - m)) ∧
    ran (.referencePulse (pulseAt 59970000)) base (fun t => decide (t.tb.counter = 1001 ∧ t.tb.watchFrom = 60000000)) = true ∧
    (∀ m, base.tb.lastPulse = some m → 2 * (base.clock + 59969999 - m) < nominalPeriod base.config.rate) ∧
    ran (.referencePulse (pulseAt 59969999)) base (fun t => decide (t = { base with clock := 59999999 })) = true :=
  ⟨rfl, rfl, (fun _ h => by cases h; decide), by decide +kernel, (fun _ h => by cases h; decide), by decide +kernel⟩

/-- ReferenceLost, at 1.5 nominal periods. -/
theorem test_refLost : 3 * nominalPeriod base.config.rate ≤ 2 * (base.clock + 179970000 - base.tb.watchFrom) ∧
    ran (.refLost (pulseAt 179970000)) base (fun t => t.tb.refLost && decide (t.tb.counter = 1001)) = true := by decide +kernel

def lost : State := { base with tb := { base.tb with refLost := true } }

/-- ReferenceAndFlywheel: due at one period; a return at half a period counts, earlier it does not. -/
theorem test_flywheel : (∀ m, lost.tb.lastPulse = some m → m + nominalPeriod lost.config.rate ≤ lost.clock + 119970000) ∧
    ran (.flywheelPulse (pulseAt 119970000)) lost (fun t => decide (t.tb.counter = 1001)) = true ∧
    ran (.referencePulse (pulseAt 59970000)) lost (fun t => !t.tb.refLost && decide (t.tb.counter = 1001 ∧
      t.port.urgent = [.lock ⟨.refReturned, none, .locked, false, false, some 2, 1001, 0, 0, none, none⟩])) = true ∧
    ran (.referencePulse (pulseAt 0)) lost (fun t => !t.tb.refLost && decide (t.tb.counter = 1000 ∧
      t.port.urgent = [.lock ⟨.refReturned, none, .locked, false, false, some 2, 1000, 0, 0, none, none⟩])) = true :=
  ⟨(fun _ h => by cases h; decide), by decide +kernel⟩

/-- LockTimersExpire, each at its limit. -/
theorem test_lockTimers :
    ran .silence { base with tb := { base.tb with silence := 48 } } (fun t => decide (t.tb.lock = .holdover ∧ t.tb.followed = none)) = true ∧
    ran .acquireTimeout { base with tb := { base.tb with lock := .acquiring, silence := 48 } } (fun t => decide (t.tb.lock = .free)) = true ∧
    ran .holdoverExpired { base with tb := { base.tb with lock := .holdover, holdover := 1024 } } (fun t => decide (t.tb.lock = .free)) = true := by
  decide +kernel

/-- A frame pulse of the base, its blocks in the order `o`. -/
def pulse (o : List Block) : Instr := .referencePulse { pulseAt 119970000 with order := o }

theorem pulsed_of (s : State) (p : Pulse) (hr : s.run = .run ∧ s.tb.refLost = false)
    (he : ({ s with clock := s.clock + p.dt } : State).early = false) : s.pulsed (.referencePulse p) p :=
  ⟨hr.1, .inl ⟨rfl, hr.2, fun m h => by
    simp only [State.early, h] at he
    exact Nat.not_lt.mp (of_decide_eq_false he)⟩⟩

/-- FramePulseCounts: the frame pulse meets its condition, and each count stops one below its limit. -/
theorem test_counts : base.pulsed (pulse []) { pulseAt 119970000 with order := [] } ∧
    ran (pulse []) { base with tb := { base.tb with silence := 46 } } (fun t => decide (t.tb.silence = 47 ∧ t.tb.lock = .locked)) = true ∧
    ran (pulse []) { base with tb := { base.tb with lock := .holdover, holdover := 1022 } }
      (fun t => decide (t.tb.holdover = 1023 ∧ t.tb.lock = .holdover)) = true ∧
    ran (pulse []) (withPeer base 9 { peerIn presence1 with silence := 28 }) (fun t => decide (t.peer 9 = { peerIn presence1 with silence := 29 })) = true ∧
    ran (pulse [.sync]) (stepped { Sync.reset with joinCount := 28 }) (fun t => decide (t.sync = { Sync.reset with joinCount := 29 })) = true ∧
    ran (pulse []) (stepped { Sync.reset with step := .outOfStep, askWait := 12 }) (fun t => decide (t.sync.askWait = 13 ∧ t.line.routine = [])) = true ∧
    ran (pulse []) (stepped { Sync.reset with step := .catchingUp, ask := .out, askRetry := 18 }) (fun t => decide (t.sync.askRetry = 19)) = true ∧
    ran (pulse []) (stepped { Sync.reset with step := .catchingUp, phase := .receiving, gap := 9 }) (fun t => decide (t.sync.gap = 10)) = true ∧
    ran (pulse []) (stepped { base.sync with responder := .waiting, wait := some 2 }) (fun t => decide (t.sync.wait = some 1)) = true ∧
    ran (pulse []) { base with pair := ⟨.active, .pending, 28, [], false⟩ } (fun t => decide (t.pair.yieldCount = 29)) = true :=
  ⟨pulsed_of _ _ (by decide +kernel) (by decide +kernel), by decide +kernel⟩

/-- The base one pulse short of frame 1,008, a multiple of 16, silent for 47 pulses. -/
def silent : State := { base with tb := { base.tb with counter := 1007, silence := 47 } }

/-- ElectionAndMarkDue: elected with its first MARK; not below an eligible peer; a source with a place, without one, with a MARK waiting. -/
theorem test_election : silent.pulsed (pulse [.timebase]) { pulseAt 119970000 with order := [.timebase] } ∧
    (∀ n : StationNo, n < silent.straps.number → silent.peerEligible n = false) ∧
    ran (pulse [.timebase]) silent (fun t => t.tb.source && decide (t.tb.lock = .locked ∧ t.line.urgent = [⟨.mark 1008, 0, false⟩])) = true ∧
    ran (pulse [.timebase]) (withPeer silent 2 (peerIn presence1)) (fun t => !t.tb.source && decide (t.tb.lock = .holdover)) = true ∧
    ran (pulse []) { silent with tb := { silent.tb with source := true } } (fun t => decide (t.line.urgent = [⟨.mark 1008, 0, false⟩])) = true ∧
    ran (pulse []) { silent with tb := { silent.tb with source := true }, line := { base.line with urgent := .replicate 4 ⟨.yield 9, 0, false⟩ } }
      (fun t => decide (t.line.urgent.length = 4 ∧ t.line.record.markSkipped = 1)) = true ∧
    ran (pulse []) { silent with tb := { silent.tb with source := true }, line := { base.line with urgent := [⟨.mark 992, 1, false⟩] } }
      (fun t => decide (t.line.urgent = [⟨.mark 992, 1, false⟩])) = true :=
  ⟨pulsed_of _ _ (by decide +kernel) (by decide +kernel), by decide +kernel⟩

/-- The base before frame 1,004, whose last figure is that of station 4. -/
def due : State := { base with tb := { base.tb with counter := 1003 } }

/-- The base with input 1 mapped to line 5, which flashes, and released at the last sample. -/
def flashing : State :=
  { base with
    cfg := some { Cfg.cleared with readyMap := Cfg.cleared.readyMap.set 1 (some 5), wrapLine := some 5, wrapLead := 50 }
    timing := { base.timing with wrapClaim := .flash, wrapItem := some 0x0803 }
    out := { base.out with lights := base.out.lights.set 5 .flash, samples := some (.replicate 4 false) } }

def pressing : Instr := .referencePulse ⟨119970000, (Vector.replicate 4 false).set 1 true, [.output]⟩

/-- DueAtFramePulse: a new PRESENCE, one skipped, one refreshed; a READY, and why none; BACKTIME. -/
theorem test_due :
    ran (pulse [.line]) due (fun t => decide (t.line.routine = [⟨.presence due.presence, 0, false⟩])) = true ∧
    ran (pulse [.line]) { due with line := { base.line with routine := .replicate 8 ⟨.ask, 0, false⟩ } }
      (fun t => decide (t.line.routine.length = 8 ∧ t.line.record.presenceSkipped = 1)) = true ∧
    ran (pulse [.line]) { due with line := { base.line with routine := [⟨.ask, 0, false⟩, ⟨.presence presence1, 3, false⟩] } }
      (fun t => decide (t.line.routine = [⟨.ask, 0, false⟩, ⟨.presence due.presence, 3, false⟩])) = true ∧
    ran pressing flashing (fun t => decide (t.line.routine = [⟨.ready 5 (some 0x0803), 0, false⟩] ∧
      t.port.routine = [.ready 1 5 (some 0x0803) 1001 none])) = true ∧
    ran pressing { flashing with tb := { base.tb with counter := 1003 } } (fun t => decide (t.line.routine.map (fun m =>
      (m.msg.isPresence, m.attempts)) = [(false, 0), (true, 0)])) = true ∧
    ran pressing { flashing with line := { base.line with muted := true } } (fun t => decide (t.line.routine = [] ∧
      t.port.routine = [.ready 1 5 (some 0x0803) 1001 (some .muted)])) = true ∧
    ran (pulse []) { base with timing := { base.timing with projection := ⟨none, 10, some 1000⟩ } } (fun t => decide (t.timing.sign = .over ∧
      t.port.routine = [.backtime .over (some 11) 1011 (some 1000) 1001 true])) = true := by decide +kernel

/-- MarkCapturedTakenOrIgnored: the delimiter, while silent and while sending. -/
theorem test_capture : base.run = .run ∧ ran (.markCapture 1) base (fun t => decide (t.tb.capture = some 1000 ∧ t.line.rx = .inRun)) = true ∧
    ran (.markCapture 1) { base with line := { base.line with transmitting := true } } (fun t => decide (t.line.rx = .own)) = true := by
  decide +kernel

def caught : State := { base with tb := { base.tb with capture := some 1000 } }

theorem hears_of {s : State} {r : Reception} {n : StationNo} {b : Byte} {m : RxMsg}
    (h : (s.run = .run ∧ s.line.rx = .inRun) ∧ s.classify r = .good n b m ∧ n ≠ s.straps.number) : s.hears r n b m := h

/-- MarkCapturedTakenOrIgnored: station 2, followed, is taken; station 3 is not. -/
theorem test_mark : caught.hears (rx 2 (.mark 1003)) 2 255 (.mark 1003) ∧ caught.hears (rx 3 (.mark 1003)) 3 255 (.mark 1003) ∧
    caught.tb.capture = some 1000 ∧ caught.tb.source = false ∧ caught.tb.followed = some 2 ∧
    ran (.receiveMark 0 (rx 2 (.mark 1003))) caught (fun t => decide (t.tb.counter = 1003 ∧ t.tb.lock = .acquiring)) = true ∧
    ran (.receiveMark 0 (rx 3 (.mark 1003))) caught (fun t => decide (t.tb = caught.tb)) = true :=
  ⟨hears_of (by decide +kernel), hears_of (by decide +kernel), by decide +kernel⟩

/-- The source hears station 2, at frame 1,000. -/
def yielding (m : Frame) (p : State → Bool) : Bool :=
  ran (.receiveMark 0 (rx 2 (.mark m))) { caught with
    tb := { caught.tb with source := true, followed := none }, line := { base.line with urgent := [⟨.mark 992, 1, false⟩] } } p

/-- MarkCapturedTakenOrIgnored: a source yields, at a difference of 0, of one frame either way, and of two. -/
theorem test_yields :
    yielding 1000 (fun t => !t.tb.source && t.line.urgent.isEmpty && decide (t.tb.lock = .locked ∧ t.tb.slipCount = 0 ∧
      t.port.urgent.length = 1)) = true ∧
    yielding 1001 (fun t => decide (t.tb.lock = .locked ∧ t.tb.lastSlip = some (1, 1001))) = true ∧
    yielding 999 (fun t => decide (t.tb.lock = .locked ∧ t.tb.lastSlip = some (-1, 999))) = true ∧
    yielding 1002 (fun t => !t.usable && decide (t.tb.lock = .acquiring ∧ t.tb.slipCount = 0)) = true ∧
    yielding 998 (fun t => decide (t.tb.lock = .acquiring ∧ t.tb.counter = 998)) = true := by decide +kernel

def free : State := { caught with tb := { caught.tb with lock := .free, followed := none } }

/-- MarkInEachState, in FREE. -/
theorem test_markFree : free.hears (rx 2 (.mark 50)) 2 255 (.mark 50) ∧ free.tb.lock = .free ∧ free.tb.source = false ∧
    (∀ g, free.tb.followed = some g → (2 : StationNo) ≤ g) ∧
    ran (.receiveMark 0 (rx 2 (.mark 50))) free (fun t => decide (t.tb.counter = 50 ∧ t.tb.lock = .acquiring)) = true :=
  ⟨hears_of (by decide +kernel), rfl, rfl, (fun _ h => nomatch h), by decide +kernel⟩

def inLock (l : LockState) (agree : Nat) : State := { caught with tb := { caught.tb with lock := l, agree := agree } }

/-- MarkInEachState: agreement, slip of one frame each way, and reacquiring. -/
theorem test_markStates :
    ran (.receiveMark 0 (rx 2 (.mark 1000))) (inLock .acquiring 0) (fun t => decide (t.tb.lock = .acquiring ∧ t.tb.agree = 1)) = true ∧
    ran (.receiveMark 0 (rx 2 (.mark 1000))) (inLock .acquiring 1) (fun t => decide (t.tb.lock = .locked)) = true ∧
    ran (.receiveMark 0 (rx 2 (.mark 1001))) (inLock .locked 0) (fun t => decide (t.tb.lock = .locked ∧ t.tb.slipCount = 1)) = true ∧
    ran (.receiveMark 0 (rx 2 (.mark 999))) (inLock .holdover 0) (fun t => decide (t.tb.lock = .locked ∧ t.tb.lastSlip = some (-1, 999))) = true ∧
    ran (.receiveMark 0 (rx 2 (.mark 998))) (inLock .locked 0) (fun t => decide (t.tb.lock = .acquiring ∧ t.tb.counter = 998)) = true := by
  decide +kernel

/-! ## Cue scheduler, output unit, timing unit -/

/-- The entry of `cue1` of item 0x0803, fire frame 1,000. -/
def entry1 : Entry :=
  { newEntry base.env 0x0803 cue1 (.onAir ⟨1000, false, 0, none⟩) with planned := some 1000, fire := some 1000, endFrame := some 1025 }

def armedBase : State := { base with sched := { base.sched with armed := [entry1], lastDone := some (0x0803, 1000) } }
def unusable (s : State) : State := { s with tb := { s.tb with lock := .free } }
def record1 : ShadowRec := ⟨0x0803, cue1, false, 1000, some 1025, 1000, some 25, {}⟩

/-- SchedulerTimers, each at its frame. -/
theorem test_schedulerTimers :
    ran (.recoveryEnds 3) { base with sched := { base.sched with
        resources := base.sched.resources.set 3 ⟨.recovering, none, some 990, some 1000⟩ } }
      (fun t => decide (t.sched.resources[(3 : Fin 16)].state = .idle)) = true ∧
    ran .itemEndCancel (unusable armedBase) (fun t => t.sched.armed.isEmpty && decide (t.port.urgent.length = 1)) = true ∧
    ran .shadowRecordsExpire { armedBase with sched := { armedBase.sched with shadowList := [record1], overflow := true } }
      (fun t => t.sched.shadowList.isEmpty && !t.sched.overflow) = true ∧
    atOrAfter base.now 1000 = true ∧ (unusable armedBase).usable = false := by decide +kernel

/-- ScanActs. -/
theorem test_scan : armedBase.usable = true ∧ armedBase.sched.armed = [entry1] ∧ entry1.cue.body = .fire 3 false (some ⟨25, none⟩) ∧
    entry1.fire = some armedBase.now ∧ entry1.state = .armed ∧ entry1.endFrame = some 1025 ∧ later 1025 armedBase.now = true ∧
    (armedBase.config.resources[(3 : Fin 16)]).advance ≤ 15 ∧ (unusable armedBase).usable = false ∧
    ran (.scan 7) armedBase (fun t => decide (t.sched.resources[(3 : Fin 16)] = ⟨.busy, some (0x0803, 0), some 1000, some 1025⟩ ∧
      t.sched.doneThrough = some 1000 ∧ t.port.urgent.length = 1)) = true ∧
    ran (.scan 7) (unusable armedBase) (fun t => decide (t.sched = armedBase.sched)) = true := by decide +kernel

/-- Station 4 drives `e`, the one entry of its table, at frame 1,000. -/
def alone (e : Entry) : State := { base with sched := { base.sched with armed := [e] } }

def lightCue : Cue := ⟨1, 4, .light 2 none, 0, 0⟩
def pipsCue : Cue := ⟨2, 4, .pips 1 2, 0, 0⟩
def markerCue : Cue := ⟨3, 4, .marker, 0, 9⟩
def entryOf (c : Cue) : Entry := newEntry base.env 0x0803 c (.onAir ⟨1000, false, 0, none⟩)

/-- EntriesAct: prepare and end of a FIRE, warn, on and off of a LIGHT, a PIPS handed over, a MARKER. -/
theorem test_entriesAct :
    ran (.scan 0) (alone { entryOf cue1 with prepare := some 1000 }) (fun t => decide (t.sched.armed.map (·.state) = [.prepared] ∧
      t.port.urgent = [.prepare 0x0803 0 3 none 7])) = true ∧
    ran (.scan 0) { base with sched := { base.sched with
        armed := [{ entry1 with state := .running, endFrame := some 1000 }]
        resources := base.sched.resources.set 3 ⟨.busy, some (0x0803, 0), some 975, some 1000⟩ } }
      (fun t => t.sched.armed.isEmpty && decide (t.port.urgent = [.ended 0x0803 0 3 1000 7 false] ∧
        t.sched.resources[(3 : Fin 16)].state = .idle)) = true ∧
    ran (.scan 0) (alone { entryOf lightCue with warn := some 1000 }) (fun t => decide (t.out.lights[(2 : Fin 8)] = .flash)) = true ∧
    ran (.scan 0) (alone { entryOf lightCue with fire := some 1000 }) (fun t => decide (t.out.lights[(2 : Fin 8)] = .on)) = true ∧
    ran (.scan 0) (alone { entryOf lightCue with state := .running, endFrame := some 1000 })
      (fun t => t.sched.armed.isEmpty && decide (t.out.lights[(2 : Fin 8)] = .off)) = true ∧
    ran (.scan 0) (alone { entryOf pipsCue with fire := some 1025, kept := [⟨1000, false⟩, ⟨1025, true⟩] })
      (fun t => t.pipPin 1 && decide (t.sched.armed.map (·.state) = [.running])) = true ∧
    ran (.scan 0) (alone { entryOf markerCue with fire := some 1000 }) (fun t => t.sched.armed.isEmpty &&
      decide (t.port.urgent = [.fire 0x0803 3 none 1000 none {} none none 9])) = true := by decide +kernel

/-- A FIRE entry from `f` to `g`. -/
def fired (f g : Frame) : Entry := { entry1 with planned := some f, fire := some f, endFrame := some g }

def backup (r : Role) : State :=
  { base with cfg := some { Cfg.cleared with pairMode := .backup, partner := some 9 }, pair := { base.pair with role := r } }

/-- An entry in SHADOW. -/
def shaded (e : Entry) : Entry := { e with flags := { e.flags with shadow := true } }

/-- The base as a backup's STANDBY, `e` its one entry, resource 3 mirrored or not. -/
def tracking (mirror : Bool) (e : Entry) : State :=
  { backup .standby with
    cfg := some { Cfg.cleared with
      pairMode := .backup, partner := some 9
      resources := Cfg.cleared.resources.set 3 { ResourceParams.cleared with mirror := mirror, autoRelease := true } }
    sched := { base.sched with armed := [e] } }

/-- ScanActs in SHADOW: a start withheld, and one that the mirror shows. -/
theorem test_withheld : (tracking true (shaded entry1)).shown (shaded entry1) = true ∧
    (tracking false (shaded entry1)).shown (shaded entry1) = false ∧
    ran (.scan 0) (tracking false (shaded entry1)) (fun t => decide (t.sched.armed.map (·.withheld) = [true] ∧ t.port.urgent = [] ∧
      t.sched.doneThrough = none ∧ t.sched.resources[(3 : Fin 16)].state = .busy)) = true ∧
    ran (.scan 0) (tracking true (shaded entry1)) (fun t => decide (t.sched.armed.map (·.withheld) = [false] ∧
      t.port.urgent = [.fire 0x0803 0 (some 3) 1000 (some 25) { shadow := true } none none 7])) = true := by decide +kernel

/-- Records of sixteen other entries. -/
def recorded : List ShadowRec := (List.range 16).map fun k => { record1 with item := BitVec.ofNat 16 (0x0900 + k) }

/-- EntriesAct in SHADOW: the end of a FIRE is recorded, its END shown by the mirror, never its FREE; a MARKER in place of a record of
its name, and one without a place, even where a record of its name stands. -/
theorem test_recorded :
    let ended : Entry := { shaded entry1 with state := .running, fire := some 975, endFrame := some 1000 }
    let busy (s : State) : State := { s with sched := { s.sched with
      resources := s.sched.resources.set 3 ⟨.busy, some (0x0803, 0), some 975, some 1000⟩ } }
    let marker : Entry := shaded { entryOf markerCue with fire := some 1000 }
    let listed (l : List ShadowRec) : State :=
      let s := tracking false marker
      { s with sched := { s.sched with shadowList := l } }
    ran (.scan 0) (busy (tracking false ended)) (fun t => t.sched.armed.isEmpty && decide (t.port.urgent = [] ∧
      t.sched.shadowList.map (fun r => (r.fire, r.endFrame, r.mirror)) = [(975, some 1000, false)])) = true ∧
    ran (.scan 0) (busy (tracking true ended)) (fun t => decide (t.port.urgent = [.ended 0x0803 0 3 1000 7 false] ∧
      t.sched.shadowList.map (·.mirror) = [true])) = true ∧
    ran (.scan 0) (listed [{ record1 with cue := markerCue, fire := 1 }]) (fun t => decide (t.port.urgent = [] ∧
      t.sched.shadowList.map (·.fire) = [1000])) = true ∧
    ran (.scan 0) (listed (recorded.drop 1)) (fun t => decide (t.sched.shadowList.length = 16) && !t.sched.overflow) = true ∧
    ran (.scan 0) (listed recorded) (fun t => decide (t.sched.shadowList.length = 16) && t.sched.overflow) = true ∧
    ran (.scan 0) (listed ({ record1 with cue := markerCue, fire := 1 } :: recorded.drop 1)) (fun t => t.sched.overflow &&
      decide (t.sched.shadowList.map (·.fire) = 1 :: List.replicate 15 1000)) = true := by decide +kernel

/-- LateRule: one frame of the clip left; 8 frames late and 9; a MARKER. -/
theorem test_late :
    ran (.scan 0) (alone (fired 976 1001)) (fun t => decide (t.sched.armed.map (·.joinOffset) = [some 24] ∧
      t.sched.resources[(3 : Fin 16)] = ⟨.busy, some (0x0803, 0), some 976, some 1001⟩)) = true ∧
    ran (.scan 0) (alone (fired 992 1000)) (fun t => t.sched.armed.isEmpty && decide (t.port.urgent =
      [.fire 0x0803 0 (some 3) 992 (some 25) { late := true } none none 7, .ended 0x0803 0 3 1000 7 false])) = true ∧
    ran (.scan 0) (alone (fired 991 1000)) (fun t => t.sched.armed.isEmpty && decide (t.port.urgent =
      [.missed 0x0803 cue1 .tooLate (some 991) (some 9)])) = true ∧
    ran (.scan 0) (alone { entryOf markerCue with fire := some 999 }) (fun t => decide (t.port.urgent =
      [.fire 0x0803 3 none 999 none { late := true } none none 9])) = true := by decide +kernel

/-- Of two entries of resource 3, passed while gallery time was not usable, the one ahead joins and takes the preparation of the other,
which is 8 frames late: the resource stays BUSY for the first (R77, R89; log 15). -/
theorem test_lateBesideJoined :
    let ahead : Entry := { fired 996 1021 with prepare := some 940 }
    let late : Entry := { fired 992 995 with cue := { cue1 with slot := 4 }, state := .prepared, preparedAt := some 930 }
    ran (.scan 0) { base with sched := { base.sched with
        armed := [ahead, late], resources := base.sched.resources.set 3 ⟨.prepared, some late.key, some 900, none⟩ } }
      (fun t => decide (t.sched.armed.map (fun e => (e.key, e.state)) = [((0x0803, 0), .running)] ∧
        t.sched.resources[(3 : Fin 16)] = ⟨.busy, some (0x0803, 0), some 996, some 1021⟩ ∧
        t.sched.groups[(0 : Fin 4)] = some (996, 3) ∧
        (t.port.urgent.any fun n => n = .ended 0x0803 4 3 995 7 false) = true)) = true := by decide +kernel

/-- LateRule: a MARKER cut and one missed; a LIGHT without an end, 8 frames late and 9; and entries in SHADOW. -/
theorem test_lateOthers :
    ran (.scan 0) (alone { entryOf markerCue with fire := some 990, endFrame := some 1001, flags := { cut := true } })
      (fun t => decide (t.port.urgent = [.fire 0x0803 3 none 990 none { cut := true, joined := true } none (some 10) 9])) = true ∧
    ran (.scan 0) (alone { entryOf markerCue with fire := some 991 })
      (fun t => decide (t.port.urgent = [.missed 0x0803 markerCue .tooLate (some 991) (some 9)])) = true ∧
    ran (.scan 0) (alone { entryOf lightCue with fire := some 900 }) (fun t => decide (t.out.lights[(2 : Fin 8)] = .on ∧
      t.sched.armed.map (fun x => (x.state, x.flags.joined, x.joinOffset)) = [(.running, true, some 100)])) = true ∧
    ran (.scan 0) (alone { entryOf lightCue with fire := some 992, endFrame := some 1000 })
      (fun t => t.sched.armed.isEmpty && t.port.urgent.isEmpty && decide (t.out.lights[(2 : Fin 8)] = .off)) = true ∧
    ran (.scan 0) (alone { entryOf lightCue with fire := some 991, endFrame := some 1000 })
      (fun t => t.sched.armed.isEmpty && decide (t.port.urgent = [.missed 0x0803 lightCue .tooLate (some 991) (some 9)])) = true ∧
    ran (.scan 0) (tracking false (shaded (fired 976 1001))) (fun t => decide (t.sched.armed.map (·.withheld) = [true] ∧
      t.port.urgent = [])) = true ∧
    ran (.scan 0) (tracking false (shaded (fired 991 1000))) (fun t => decide (t.port.urgent = [] ∧
      t.sched.shadowList.map (·.fire) = [991])) = true := by decide +kernel

/-- A count-in of two, `a` and `z`, whose span ends at `g`. -/
def counting (a z g : Frame) : Entry := { entryOf pipsCue with fire := some z, kept := [⟨a, false⟩, ⟨z, true⟩], endFrame := some g }

/-- LateRule: a count-in joined at its last pip, joined with none to come, 8 frames late and 9. -/
theorem test_latePips :
    ran (.scan 0) (alone (counting 975 1000 1013)) (fun t => t.levelPin 1 && decide (t.out.pips[(1 : Fin 2)].map (·.kept) =
      some [⟨1000, true⟩])) = true ∧
    ran (.scan 0) (alone (counting 970 995 1008)) (fun t => decide (t.out.pips[(1 : Fin 2)] = none ∧
      t.sched.armed.map (·.state) = [.running])) = true ∧
    ran (.scan 0) (alone (counting 967 992 1000)) (fun t => t.sched.armed.isEmpty && t.port.urgent.isEmpty) = true ∧
    ran (.scan 0) (alone (counting 966 991 1000)) (fun t => t.sched.armed.isEmpty &&
      decide (t.port.urgent = [.missed 0x0803 pipsCue .tooLate (some 991) (some 9)])) = true := by decide +kernel

/-- The base at frame `now` with line 2 in state `l`. -/
def lit (l : Light) (now : Frame) : State :=
  { base with tb := { base.tb with counter := now }, out := { base.out with lights := base.out.lights.set 2 l } }

/-- LightsKept: with gallery time not usable a LIGHT line stays ON when an applied CLOSE drops its claim. -/
theorem test_lightsHeld :
    let held : State := { unusable (air (.close 1000)) with
      sched := { base.sched with armed := [{ entryOf lightCue with fire := some 900, state := .running }] }
      out := { base.out with lights := base.out.lights.set 2 .on } }
    held.usable = false ∧
    ran (.close 0) held (fun t => decide (t.out.lights = held.out.lights) && !t.usable) = true := by decide +kernel

/-- PinsPipsAndWrapPoints: FLASH at 25 frames a second is lit on 0 to 12 of each; nothing in STANDBY or START but caution. -/
theorem test_pins : (lit .on 1013).lightPin 2 = true ∧ (lit .flash 1012).lightPin 2 = true ∧ (lit .flash 1013).lightPin 2 = false ∧
    (lit .off 1000).lightPin 2 = false ∧ ({ lit .on 1000 with run := .start } : State).lightPin 2 = false ∧
    ({ lit .on 1000 with pair := { base.pair with role := .standby } } : State).lightPin 2 = false ∧
    base.changeoverPin = true ∧ base.cautionPin = false ∧ (unusable base).cautionPin = true ∧
    ({ base with line := { base.line with muted := true } } : State).cautionPin = true ∧
    (stepped Sync.reset).cautionPin = true ∧ ({ unusable base with run := .start } : State).cautionPin = false := by decide +kernel

def playing : State :=
  { base with out := base.out.setPip 1 (some ⟨0x0803, 2, 3, 1050, [⟨1000, false⟩, ⟨1025, false⟩], [⟨1000, false⟩, ⟨1025, false⟩], none, none, false⟩) }

def sounding : State :=
  { base with out := base.out.setPip 0 (some ⟨0x0803, 2, 1, 1000, [⟨1000, true⟩], [], none, some ⟨⟨1000, true⟩, 0⟩, false⟩) }

/-- PinsPipsAndWrapPoints: the long pip ends at 500 milliseconds. -/
theorem test_pips : playing.usable = true ∧ atOrBefore 1000 playing.now = true ∧ later 1025 playing.now = true ∧
    ran (.pipStarts 5 1) playing (fun t => t.pipPin 1 && !t.levelPin 1) = true ∧ sounding.levelPin 0 = true ∧
    (if true then 500 else 100) * millisecond ≤ sounding.clock + 1499970000 - 0 ∧
    ran (.pipEnds 1499970000 0) sounding (fun t => decide (t.out.pips[(0 : Fin 2)] = none)) = true ∧
    ran (.pipEnds 1499969999 0) sounding (fun t => t.levelPin 0) = true := by decide +kernel

/-- An item on air from 900 with duration 150, wrap lead 50 on line 2. -/
def timed (now : Frame) : State :=
  { base with
    cfg := some { Cfg.cleared with wrapLine := some 2, wrapLead := 50 }, tb := { base.tb with counter := now }
    timing := { base.timing with onAir := some ⟨0x0803, 900, 0, none, 150, none⟩ } }

def ending : State := { timed 1000 with timing := { (timed 1000).timing with ending := some ⟨0x0801, 500, 0, none, 400, some 1000⟩ } }

/-- A pip sounding over the stop frame 1010 of its cut: withdrawn at 1020, it completes where 1010 passed unusable, else stops, and
so it does where usable time returns in 1010; a pip to come again after a correction plays (log 42). -/
theorem test_pipOverStop :
    let p : Playing := ⟨0x0803, 2, 3, 1050, [⟨1000, false⟩], [], some 1010, some ⟨⟨1000, false⟩, 0⟩, false⟩
    ((p.dropPassed 1020).bind (Playing.withdraw true)).isSome = true ∧ p.withdraw true = none ∧ p.stopAt 1010 = none ∧
    (p.dropPassed 1010).bind (Playing.withdraw true) = none ∧
    (Playing.dropPassed 990 { p with stop := none, waiting := [⟨1000, false⟩] }).map (·.waiting) = some [⟨1000, false⟩] := by
  decide +kernel

/-- PinsPipsAndWrapPoints: warn at 1,000, expiry at 1,050; the ending record goes at 1,000. -/
theorem test_wrap :
    ran .warnPoint (timed 1000) (fun t => decide (t.timing.wrapClaim = .flash ∧ t.out.lights[(2 : Fin 8)] = .flash)) = true ∧
    ran .warnPoint (timed 999) (fun t => decide (t.timing.wrapClaim = .off)) = true ∧
    ran .expiryPoint (timed 1050) (fun t => decide (t.timing.wrapClaim = .on ∧ t.timing.wrapItem = some 0x0803)) = true ∧
    ran .expiryPoint (timed 1049) (fun t => decide (t.timing.wrapClaim = .off)) = true ∧
    ran .endingRecordDropped ending (fun t => decide (t.timing.ending = none ∧ t.timing.wrapClaim = .flash)) = true := by
  decide +kernel

/-! ## Roster, sync engine, pair monitor -/

/-- What an unfit STANDBY, not usable, posts of its block. -/
def blockedNotice (c : RoleCause) (present : Bool) (role : Option Role) : Notice := .takeoverBlocked c present role false true false

/-- PeerFallsAbsent, for a peer, for the partner, and for that of a STANDBY fit and unfit. -/
theorem test_peerAbsent :
    let lone := withPeer (backup .standby) 9 { peerIn presence1 with silence := 30 }
    ran (.peerAbsent 9) lone (fun t => t.changeoverPin && decide (t.port.urgent =
      [.role .active .standby .partnerAbsent 1000 (some 9) false (some 1000)])) = true ∧
    ran (.peerAbsent 9) (unusable lone) (fun t => t.pair.blocked && decide (t.port.routine =
      [.peer 9 false 1000 (some presence1), blockedNotice .partnerAbsent false (some .solo)])) = true ∧
    ran (.peerAbsent 9) { unusable lone with pair := { lone.pair with blocked := true } } (fun t => t.pair.blocked &&
      decide (t.port.routine = [.peer 9 false 1000 (some presence1)])) = true ∧
    ran (.peerAbsent 9) { lone with sync := Sync.reset } (fun t => decide (t.pair.role = .standby) && !t.pair.blocked) = true ∧
    ran (.peerAbsent 9) (withPeer base 9 { peerIn presence1 with silence := 30 }) (fun t =>
      !(t.peer 9).present && decide (t.port.routine = [.peer 9 false 1000 (some presence1)])) = true ∧
    ran (.peerAbsent 9) (withPeer { base with cfg := some { Cfg.cleared with pairMode := .main, partner := some 9 } } 9
      { peerIn presence1 with silence := 30 }) (fun t => t.pair.fitness.isEmpty) = true := by decide +kernel

/-- JoiningAndAsking, each at its limit: station 4 waits 14 pulses. -/
theorem test_asking :
    ran .founded (stepped { Sync.reset with joinCount := 30 }) (fun t => decide (t.sync.step = .inStep)) = true ∧
    ran .founded (stepped { Sync.reset with joinCount := 29 }) (fun t => decide (t.sync.step = .joining)) = true ∧
    ran .askWaitExpires (stepped { Sync.reset with step := .outOfStep, askWait := 14 })
      (fun t => decide (t.sync.step = .catchingUp ∧ t.line.routine = [⟨.ask, 0, false⟩])) = true ∧
    (withPeer base 9 (peerIn presence1)).peerInStep 9 = true ∧
    ran .askRetryExpires (withPeer (stepped { Sync.reset with step := .catchingUp, ask := .out, askRetry := 20 }) 9 (peerIn presence1))
      (fun t => decide (t.sync.ask = .queued)) = true ∧
    (∀ n, base.peerInStep n = false) ∧ base.wouldBeChosen = some (4, base.store.summary) ∧
    ran .askRetryExpires (stepped { Sync.reset with step := .catchingUp, ask := .out, askRetry := 20 })
      (fun t => decide (t.sync.step = .inStep)) = true := by decide +kernel

/-- StreamTimers. -/
theorem test_streamTimers :
    ran .responseWaitExpires (stepped { base.sync with responder := .waiting, wait := some 0 })
      (fun t => decide (t.sync.responder = .opening ∧ t.line.bulk = [⟨.part 0 [], 0, false⟩])) = true ∧
    ran .gapTimeout (stepped { Sync.reset with step := .catchingUp, phase := .receiving, source := some 9, gap := 11 })
      (fun t => decide (t.sync.step = .outOfStep ∧ t.sync.source = none)) = true := by decide +kernel

/-- YieldTimesOutAndTakesOver: fit, not fit, and not of the partner. -/
theorem test_yield :
    ran .yieldFailed { backup .active with pair := ⟨.active, .pending, 30, [], false⟩ } (fun t => decide (t.pair.yield = .none)) = true ∧
    (backup .standby).hears (rx 9 (.yield 4)) 9 4 .yield ∧ (backup .standby).fit = true ∧ (unusable (backup .standby)).fit = false ∧
    ran (.receiveYield 0 (rx 9 (.yield 4))) (backup .standby) (fun t => t.changeoverPin && decide (t.port.urgent.length = 1)) = true ∧
    ran (.receiveYield 0 (rx 9 (.yield 4))) (unusable (backup .standby)) (fun t => t.pair.blocked && decide (t.pair.role = .standby ∧
      t.port.routine = [blockedNotice .yieldReceived false none])) = true ∧
    ran (.receiveYield 0 (rx 8 (.yield 4))) (backup .standby) (fun t => decide (t.pair.role = .standby)) = true :=
  ⟨by decide +kernel, hears_of (by decide +kernel), by decide +kernel⟩

/-- TakeoverSettles: a withheld clip that runs, and records 8 and 9 frames old, one of them the partner's. -/
theorem test_takeover :
    ran (.receiveYield 0 (rx 9 (.yield 4))) { backup .standby with sched := { base.sched with
        armed := [{ fired 990 1015 with state := .running, withheld := true, flags := { shadow := true } }]
        shadowList := [⟨0x0803, markerCue, false, 992, none, 992, none, {}⟩, ⟨0x0804, markerCue, false, 991, none, 991, none, {}⟩] } }
      (fun t => decide (t.port.urgent.drop 1 =
          [.fire 0x0803 0 (some 3) 990 (some 25) { joined := true } none (some 10) 7,
            .fire 0x0803 3 none 992 none { late := true } none none 9,
            .missed 0x0804 markerCue .tooLate (some 991) (some 9)] ∧
        t.sched.takeover = some ⟨none, 1000, false, [(0x0803, 3), (0x0804, 3)]⟩)) = true ∧
    ran (.receiveYield 0 (rx 9 (.yield 4))) { withPeer (backup .standby) 9 (peerIn presence1) with sched := { base.sched with
        shadowList := [⟨0x0803, markerCue, false, 992, none, 992, none, {}⟩] } }
      (fun t => decide (t.port.urgent.length = 1)) = true := by decide +kernel

/-! ## The cue line, sending -/

/-- AttemptBegins: a MARK is stamped and driven, a message that needs a place reserves it, a back-off at its end goes first. -/
theorem test_attempt : (sending .urgent (.mark 0) 0 false).line.queue .urgent = [⟨.mark 0, 0, false⟩] ∧
    96 * bitTime ≤ (sending .urgent (.mark 0) 0 false).clock + 0 ∧ (sending .urgent (.air 0 (.hold 990)) 0 false).apply.freePlaces = 8 ∧
    ran (.transmitAttempt 0 96) (sending .urgent (.mark 0) 0 false) (fun t => t.line.transmitting &&
      decide (t.line.urgent = [⟨.mark 1000, 0, false⟩] ∧ t.line.driven.take 9 = [0x33, 0x33, 0x33, 0x33, 0x6B, 255, 4, 1, 4])) = true ∧
    ran (.transmitAttempt 0 95) (sending .urgent (.mark 0) 0 false) (fun t => !t.line.transmitting) = true ∧
    ran (.transmitAttempt 0 96) (sending .urgent (.air 0 (.hold 990)) 0 false) (fun t => t.apply.reserved) = true ∧
    ran (.backoffExpires 0 96) { sending .urgent (.mark 0) 1 false with
      line := { (sending .urgent (.mark 0) 1 false).line with backoff := some ⟨1, 10800⟩ } }
      (fun t => t.line.transmitting && decide (t.line.backoff = none)) = true := by decide +kernel

/-- CollisionBacksOffOrGivesUp: at the end of the window, and past it. -/
theorem test_collision : (sending .urgent (.mark 0) 0 true).line.queue .urgent = [⟨.mark 0, 0, false⟩] ∧
    (sending .urgent (.mark 0) 0 true).clock + 19200 ≤ (sending .urgent (.mark 0) 0 true).line.attemptAt + 64 * bitTime ∧
    ran (.collision 19200) (sending .urgent (.mark 0) 0 true) (fun t => !t.line.transmitting &&
      decide (t.line.backoff = some ⟨(4 + 1 + 1000) % 32, 49200 + 9600⟩ ∧ t.line.record.collisions = 1 ∧ t.clock = 49200 + 9600)) = true ∧
    ran (.collision 19201) (sending .urgent (.mark 0) 0 true) (fun t => t.line.transmitting) = true ∧
    ran (.collision 0) (sending .routine .ask 14 true) (fun t => decide (t.line.routine = [⟨.ask, 15, false⟩])) = true := by
  decide +kernel

/-- CollisionBacksOffOrGivesUp: a MARK, an ASK of a catch-up, a YIELD. -/
theorem test_giveUp :
    ran (.collision 0) (sending .urgent (.mark 0) 15 true) (fun t => decide (t.line.urgent = [] ∧ t.line.record.markGivenUp = 1)) = true ∧
    ran (.collision 0) { sending .routine .ask 15 true with sync := { Sync.reset with step := .catchingUp, ask := .queued } }
      (fun t => decide (t.sync.step = .outOfStep ∧ t.port.routine = [.sendFailed .ask .attempts])) = true ∧
    ran (.collision 0) (sending .urgent (.yield 9) 15 true) (fun t => decide (t.pair.yield = .none)) = true := by decide +kernel

def streaming (k : Nat) : State :=
  let s := sending .bulk (.part k []) 0 true
  { s with
    store := { s.store with shadow := live3, use := .frozen }
    sync := { s.sync with responder := .sending, nextPart := some k } }

/-- TransmissionCompletes, kind by kind; the last part of three items is part 4. -/
theorem test_complete :
    ran (.transmissionComplete 1) (sending .urgent (.air 5 (.skip 1)) 0 true)
      (fun t => decide (t.apply.queue = [.ordered 4 (.air 5 (.skip 1))] ∧ t.store.holder = some .apply ∧ t.line.urgent = [])) = true ∧
    ran (.transmissionComplete 1) (sending .routine (.edit ⟨0, 4, 1, 1, [2, 1, 0]⟩) 0 true) (fun t => decide (t.apply.queue.length = 1)) = true ∧
    ran (.transmissionComplete 1) (sending .routine (.presence presence1) 0 true)
      (fun t => decide (t.roster.lastSent = some (1000, presence1))) = true ∧
    ran (.transmissionComplete 1) (sending .routine .ask 0 true) (fun t => decide (t.sync.ask = .out)) = true ∧
    ran (.transmissionComplete 1) { sending .routine .ask 0 true with
        sync := { Sync.reset with step := .catchingUp, ask := .queued, askRetry := 7 } }
      (fun t => decide (t.sync.ask = .out ∧ t.sync.askRetry = 0)) = true ∧
    ran (.transmissionComplete 1) { sending .routine .ask 0 true with
        sync := { Sync.reset with step := .catchingUp, phase := .receiving, ask := .queued, askRetry := 7 } }
      (fun t => decide (t.sync.ask = .out ∧ t.sync.askRetry = 7)) = true ∧
    ran (.transmissionComplete 1) { sending .urgent (.yield 9) 0 true with pair := ⟨.active, .queued, 0, [], false⟩ }
      (fun t => decide (t.pair.yield = .pending)) = true ∧
    ran (.transmissionComplete 1) { sending .bulk (.part 0 []) 0 true with sync := { base.sync with responder := .opening } }
      (fun t => decide (t.apply.queue = [.marker false] ∧ t.store.holder = some .freezeCopy ∧ t.store.use = .copying)) = true ∧
    ran (.transmissionComplete 1) (streaming 3) (fun t => decide (t.sync.nextPart = some 4 ∧ t.store.holder = some (.partRead 4))) = true ∧
    ran (.transmissionComplete 1) (streaming 4) (fun t => decide (t.sync.responder = .idle ∧ t.store.use = .empty)) = true := by
  decide +kernel

/-- TransmissionCompletes: the opening of a round abandoned meanwhile leaves its place void, though a new round be under way. -/
theorem test_voidOpening :
    ran (.transmissionComplete 1) (sending .bulk (.part 0 []) 0 true) (fun t => decide (t.apply.queue = [] ∧ t.store.use = .empty)) = true ∧
    ran (.transmissionComplete 1) { base with
        line := { base.line with bulk := [⟨.part 0 [], 0, true⟩], flight := some .bulk, transmitting := true }
        sync := { base.sync with responder := .opening } }
      (fun t => decide (t.apply.queue = [] ∧ t.sync.responder = .opening ∧ t.store.holder = none)) = true := by decide +kernel

/-! ## The cue line, receiving -/

def skipMsg : OutMsg := .air 5 (.skip 0x0801)
def filled (k : Nat) (s : State) : State :=
  { s with apply := { s.apply with queue := List.replicate k (.ordered 9 (.air 5 (.skip 1))), holding := true } }

/-- OrderedMessageAdmitted: in step with a place and without, catching up in the holding mode and out of it, joining. -/
theorem test_ordered : base.hears (rx 9 skipMsg) 9 255 (.ordered (.air 5 (.skip 0x0801))) ∧ (filled 7 base).apply.freePlaces = 1 ∧
    (filled 8 base).apply.freePlaces = 0 ∧
    ran (.receiveOrderedMessage 0 (rx 9 skipMsg)) base (fun t => decide (t.apply.queue = [.ordered 9 (.air 5 (.skip 0x0801))])) = true ∧
    ran (.receiveOrderedMessage 0 (rx 9 skipMsg)) (filled 8 base) (fun t => decide (t.sync.step = .outOfStep)) = true ∧
    ran (.receiveOrderedMessage 0 (rx 9 skipMsg)) (filled 7 (stepped { Sync.reset with step := .catchingUp, phase := .receiving }))
      (fun t => decide (t.apply.queue.length = 8)) = true ∧
    ran (.receiveOrderedMessage 0 (rx 9 skipMsg)) (filled 8 (stepped { Sync.reset with step := .catchingUp, phase := .receiving }))
      (fun t => decide (t.sync.step = .outOfStep)) = true ∧
    ran (.receiveOrderedMessage 0 (rx 9 skipMsg)) (stepped Sync.reset) (fun t => decide (t.apply.queue = [])) = true ∧
    ran (.receiveOrderedMessage 0 (rx 9 skipMsg)) { base with run := .start } (fun t => decide (t.apply.queue = [])) = true :=
  ⟨hears_of (by decide +kernel), by decide +kernel⟩

/-- PresenceTaken: defined values, a joining station, and a payload with an undefined role. -/
theorem test_presence : base.hears (rx 9 (.presence presence1)) 9 255 (.presence presence1.bytes) ∧
    readPresence presence1.bytes = some presence1 ∧ readPresence (presence1.bytes.set 3 3) = none ∧
    ran (.receivePresence 0 (rx 9 (.presence presence1))) base
      (fun t => decide (t.peer 9 = ⟨true, some presence1, some 1000, 0⟩)) = true ∧
    ran (.receivePresence 0 (rx 9 (.presence presence1))) (stepped Sync.reset) (fun t => decide (t.sync.step = .outOfStep ∧
      t.port.urgent = [.step .outOfStep .joining (.joinMismatch 9 presence1.summary) base.store.summary])) = true ∧
    ran (.receivePresence 0 (rx 9 (.presence { presence1 with summary := base.store.summary }))) (stepped Sync.reset)
      (fun t => decide (t.sync.step = .inStep ∧
        t.port.urgent = [.step .inStep .joining (.joinMatch 9 base.store.summary) base.store.summary])) = true :=
  ⟨hears_of (by decide +kernel), by decide +kernel⟩

/-- A PRESENCE of station 9 in role `r`, good or not. -/
def partnerSays (r : Role) (step : StepState) : Presence :=
  { presence1 with pairMode := .main, partner := some 4, role := r, step := step, summary := base.store.summary }

def paired (r : Role) (f : List Bool) : State := { backup r with pair := { base.pair with role := r, fitness := f } }

def hearsPeer (s : State) (c : Presence) (p : State → Bool) : Bool := ran (.receivePresence 0 (rx 9 (.presence c))) s p

/-- PresenceComparedAndJudged: a reference of another summary, with an empty queue and without; the doubled ACTIVE in each case; the
takeover for want of fitness, and its block. -/
theorem test_judged :
    hearsPeer base presence1 (fun t => decide (t.sync.step = .outOfStep)) = true ∧
    hearsPeer (filled 1 base) presence1 (fun t => decide (t.sync.step = .inStep)) = true ∧
    hearsPeer { paired .active [] with pair := ⟨.active, .pending, 3, [], false⟩ } (partnerSays .active .inStep)
      (fun t => decide (t.pair.role = .standby ∧ t.port.urgent = [.role .standby .active .yielded 1000 (some 9) true none])) = true ∧
    hearsPeer (unusable (paired .active [])) (partnerSays .active .inStep) (fun t => decide (t.pair.role = .standby)) = true ∧
    hearsPeer (paired .active []) (partnerSays .active .inStep) (fun t => decide (t.pair.role = .active)) = true ∧
    hearsPeer { paired .active [] with straps := ⟨12, true, true⟩ } (partnerSays .active .inStep) (fun t => decide (t.pair.role = .standby)) = true ∧
    hearsPeer { unusable (paired .active []) with sched := { base.sched with armed := [entry1], doneThrough := some 990 } }
      (partnerSays .active .inStep) (fun t => t.sched.armed.all (·.flags.shadow) && !t.changeoverPin &&
        decide (t.sched.armed.length = 1 ∧ t.sched.doneThrough = none)) = true ∧
    hearsPeer { paired .active [] with straps := ⟨12, true, true⟩ } (partnerSays .active .joining) (fun t => decide (t.pair.role = .active)) = true ∧
    hearsPeer (paired .standby [false]) (partnerSays .active .joining) (fun t => decide (t.pair.role = .active ∧
      t.port.urgent = [.role .active .standby .partnerUnfit 1000 (some 9) true (some 1000)])) = true ∧
    hearsPeer (unusable (paired .standby [true, false])) (partnerSays .active .joining) (fun t => t.pair.blocked &&
      decide (t.port.routine = [.peer 9 true 1000 (some (partnerSays .active .joining)),
        blockedNotice .partnerUnfit true (some .active)])) = true ∧
    hearsPeer (paired .standby [false]) (partnerSays .active .inStep) (fun t => decide (t.pair.role = .standby)) = true := by decide +kernel

def mutedBase : State := { base with line := { base.line with muted := true } }

/-- An air message, an ASK and a PRESENCE wait. -/
def flushing : State :=
  { base with line := { base.line with urgent := [⟨skipMsg, 0, false⟩], routine := [⟨.ask, 0, false⟩, ⟨.presence presence1, 0, false⟩] } }

/-- OwnNumberHeard: the first mutes, with SEND_FAILED, and a source ends; then each kind as its rule has it. -/
theorem test_own : base.listens ∧ base.classify (rx 4 skipMsg) = .good 4 255 (.ordered (.air 5 (.skip 0x0801))) ∧
    ran (.receiveMark 0 (rx 4 (.mark 5))) { silent with
        tb := { silent.tb with source := true, capture := some 5 }, line := { base.line with urgent := [⟨.mark 992, 1, false⟩] } }
      (fun t => t.line.muted && !t.tb.source && t.line.urgent.isEmpty) = true ∧
    ran (.receiveAsk 0 (rx 4 .ask)) flushing (fun t => t.line.routine.isEmpty &&
      decide (t.port.routine = [.sendFailed skipMsg .muted, .sendFailed .ask .muted])) = true ∧
    ran (.receiveOrderedMessage 0 (rx 4 skipMsg)) mutedBase (fun t => decide (t.apply.queue.length = 1)) = true ∧
    ran (.receivePresence 0 (rx 4 (.presence presence1))) mutedBase (fun t => decide (t.roster = base.roster)) = true ∧
    ran (.receiveReady 0 (rx 4 (.ready 3 none))) mutedBase (fun t => decide (t.port.routine = [.peerReady 4 3 none])) = true ∧
    ran (.receiveAsk 0 (rx 4 .ask)) mutedBase (fun t => decide (t.sync = base.sync)) = true ∧
    ran (.receivePartOpening 0 (rx 4 (.part 0 []))) { mutedBase with sync := { base.sync with step := .outOfStep } }
      (fun t => decide (t.sync.source = some 4)) = true :=
  ⟨⟨rfl, rfl⟩, by decide +kernel⟩

/-- AskAndOpeningHeard. -/
theorem test_ask : base.hears (rx 9 .ask) 9 255 .ask ∧ base.hears (rx 9 (.part 0 [])) 9 255 (.part 0 []) ∧ base.passesTest = true ∧
    ran (.receiveAsk 0 (rx 9 .ask)) base (fun t => decide (t.sync.responder = .waiting ∧ t.sync.wait = some 2)) = true ∧
    ran (.receiveAsk 0 (rx 9 .ask)) (stepped { base.sync with responder := .sending })
      (fun t => decide (t.sync.askers = [9])) = true ∧
    ran (.receiveAsk 0 (rx 9 .ask)) (stepped Sync.reset) (fun t => decide (t.sync = Sync.reset)) = true ∧
    ran (.receivePartOpening 0 (rx 9 (.part 0 []))) (stepped { base.sync with responder := .waiting, wait := some 2 })
      (fun t => decide (t.sync = base.sync)) = true ∧
    ran (.receivePartOpening 0 (rx 9 (.part 0 []))) (stepped { Sync.reset with step := .outOfStep })
      (fun t => t.apply.holding && decide (t.sync.source = some 9 ∧ t.store.use = .assembling)) = true :=
  ⟨hears_of (by decide +kernel), hears_of (by decide +kernel), by decide +kernel⟩

def receiving (e : Nat) (b : List (Nat × List Byte)) : State :=
  { stepped { Sync.reset with step := .catchingUp, phase := .receiving, source := some 9, expected := e, buffer := b } with
    store := { base.store with use := .assembling } }

/-- AskAndOpeningHeard: an opening that waits out its back-off is cancelled; one of the stream source abandons and opens anew. -/
theorem test_openings :
    ran (.receivePartOpening 0 (rx 9 (.part 0 []))) { stepped { base.sync with responder := .opening } with
        line := { base.line with bulk := [⟨.part 0 [], 1, false⟩], flight := some .bulk, backoff := some ⟨70, 0⟩ } }
      (fun t => decide (t.sync = base.sync ∧ t.line.bulk = [] ∧ t.line.backoff = none ∧ t.line.flight = none)) = true ∧
    ran (.receivePartOpening 0 (rx 9 (.part 0 []))) (receiving 3 [(2, [])]) (fun t => t.apply.holding &&
      decide (t.sync.expected = 1 ∧ t.sync.buffer = [] ∧ t.sync.source = some 9 ∧ t.store.use = .assembling ∧
        t.port.urgent.length = 2)) = true ∧
    ran (.receivePartOpening 0 (rx 8 (.part 0 []))) (receiving 3 []) (fun t => decide (t.sync = (receiving 3 []).sync)) = true ∧
    ran (.receivePartOpening 0 (rx 9 (.part 0 []))) { stepped { Sync.reset with step := .outOfStep } with
      store := { base.store with use := .frozen } } (fun t => decide (t.sync.step = .outOfStep ∧ t.store.use = .frozen)) = true := by
  decide +kernel

def part1 : List Byte := part1Content live3

/-- PartTaken: in order, out of order, with the buffer full, of another stream, past the last of three parts. -/
theorem test_part : (receiving 1 []).hears (rx 9 (.part 1 part1)) 9 255 (.part 1 part1) ∧
    ran (.receivePart 0 (rx 9 (.part 1 part1))) (receiving 1 [])
      (fun t => decide (t.sync.expected = 2 ∧ t.sync.count = some 3 ∧ t.store.holder = some (.partWrite 1 part1))) = true ∧
    ran (.receivePart 0 (rx 9 (.part 1 part1))) (receiving 2 []) (fun t => decide (t.sync.step = .outOfStep)) = true ∧
    ran (.receivePart 0 (rx 9 (.part 1 part1))) (receiving 1 [(2, []), (3, [])]) (fun t => decide (t.sync.step = .outOfStep)) = true ∧
    ran (.receivePart 0 (rx 8 (.part 1 part1))) (receiving 1 []) (fun t => decide (t.sync.expected = 1)) = true ∧
    (let last : State := { receiving 4 [(3, [])] with sync := { (receiving 4 [(3, [])]).sync with count := some 2 } }
     ran (.receivePart 0 (rx 9 (.part 1 part1))) last (fun t => decide (t.sync = last.sync)) = true) :=
  ⟨hears_of (by decide +kernel), by decide +kernel⟩

/-- ReadyAndRelayHeard. -/
theorem test_readyRelay : base.hears (rx 9 (.ready 3 (some 0x0803))) 9 255 (.ready 3 (some 0x0803)) ∧
    base.hears (rx 9 (.relay 4 [1])) 9 4 (.relay [1]) ∧
    ran (.receiveReady 0 (rx 9 (.ready 3 (some 0x0803)))) base
      (fun t => decide (t.port.routine = [.peerReady 9 3 (some 0x0803)])) = true ∧
    ran (.receiveRelay 0 (rx 9 (.relay 4 [1]))) base (fun t => decide (t.port.routine = [.relayIn 9 4 [1]])) = true :=
  ⟨hears_of (by decide +kernel), hears_of (by decide +kernel), by decide +kernel⟩

/-- A reception with one byte changed. -/
def spoilt (i : Nat) (r : Reception) : Reception := { r with bytes := r.bytes.modify i (· + 1) }

/-- A RELAY to station 20, which station 4 does not take. -/
def elsewhere : Reception := rx 9 (.relay 20 [1])

/-- A PRESENCE to one station, a form its kind does not allow. -/
def misdirected : Reception :=
  let head : List Byte := [4, 9, 9, 0]
  ⟨head ++ [crc8 head] ++ le32 (crc32 (head ++ [crc8 head])), false⟩

/-- A fragment of 5 bytes with this station's own number, its header check passing: neither a clash nor more than a fragment (log 43). -/
theorem test_ownFragment :
    let head : List Byte := [9, 4, 1, 0]
    let r : Reception := ⟨head ++ [crc8 head], false⟩
    base.classify r = .fragment ∧ base.clashes r = false ∧
      ran (.badReception 0 r) base (fun t => decide (t.line.muted = false ∧ t.line.record.fragments = 1)) = true := by decide +kernel

/-- BadReceptionCounted, every class, and the number clash; the command of an accepted kind discards alike. -/
theorem test_bad : base.listens ∧ base.classify ⟨[1, 2], false⟩ = .fragment ∧ base.classify (spoilt 4 (rx 9 skipMsg)) = .headerFailure ∧
    base.classify elsewhere = .notTaken ∧ base.classify misdirected = .badForm ∧
    base.classify (spoilt 6 (rx 9 skipMsg)) = .badChecks 9 (some .skip) ∧ base.clashes (spoilt 6 (rx 4 skipMsg)) = true ∧
    ran (.badReception 0 (spoilt 4 (rx 9 skipMsg))) base (fun t => decide (t.line.record.headerFailures = 1 ∧ t.sync.step = .outOfStep)) = true ∧
    ran (.badReception 0 (spoilt 6 (rx 9 skipMsg))) base (fun t => decide (t.line.record.messageFailures = 1 ∧ t.sync.step = .outOfStep)) = true ∧
    ran (.badReception 0 elsewhere) base (fun t => decide (t.line.record.destinationDiscards = 1)) = true ∧
    ran (.badReception 0 misdirected) base (fun t => decide (t.line.record.formDiscards = 1)) = true ∧
    ran (.badReception 0 (spoilt 6 (rx 4 skipMsg))) base (fun t => t.line.muted) = true ∧
    ran (.badReception 0 (spoilt 6 (rx 4 .ask))) flushing
      (fun t => decide (t.port.routine = [.sendFailed skipMsg .muted, .sendFailed .ask .muted])) = true ∧
    ran (.receiveMark 0 elsewhere) base (fun t => decide (t.line.record.destinationDiscards = 1)) = true ∧
    ran (.receiveMark 0 elsewhere) { base with line := { base.line with rx := .own } }
      (fun t => decide (t.line.record.destinationDiscards = 0 ∧ t.line.rx = .none)) = true :=
  ⟨⟨rfl, rfl⟩, by decide +kernel⟩

/-! ## The store -/

def waitingTwo : Store := { Store.reset with waitSync := some .shadowCheck, waitPort := some .orderRead }

/-- StoreGranted: the sync engine before the host port; a store in use is not granted. -/
theorem test_grant :
    (∀ d ∈ [Client.apply, .sync, .scheduler, .timing, .port].takeWhile (fun d => decide (d ≠ .sync)), waitingTwo.waiting d = none) ∧
    ran .storeGrant { base with store := waitingTwo } (fun t => decide (t.store.holder = some .shadowCheck ∧ t.store.waitPort = some .orderRead)) = true ∧
    ran .storeGrant { base with store := { waitingTwo with holder := some .apply } } (fun t => decide (t.store.holder = some .apply)) = true := by
  decide +kernel

/-! ## Applying -/

/-- The EDIT `ops` of one operation, which reads as `op`, is being applied. -/
theorem editing_one (ops : List Byte) (op : RawOp) (hc : cutOp true ops = some (ops, [])) (hr : readOp ops = some op) :
    (edit ops 1).editing ⟨2, 9, 77, 1, ops⟩ (Batch.start live3 ⟨2, 9, 77, 1, ops⟩) op [] :=
  ⟨rfl, ⟨9, [], rfl⟩, .inr ⟨rfl, rfl, Nat.le_refl 1, (by decide : 1 ≤ 6), rfl⟩, ops, hc, hr⟩

def insertOp : List Byte := [1, 1, 1, 8, 4, 8, 2, 72, 105, 10, 0, 0, 8, 5, 0, 0, 0]
def deleteOp (id : ItemId) : List Byte := 2 :: le16 id
def moveOp (id anchor : ItemId) : List Byte := 3 :: le16 id ++ [1] ++ le16 anchor
def reviveOp (id : ItemId) : List Byte := 8 :: le16 id
def amendOp : List Byte := [4, 1, 8, 6, 44, 1, 0, 1, 200, 0, 0]
def addCueOp : List Byte := 5 :: le16 0x0801 ++ [1, 4, 0, 0, 0, 3, 0, 0, 0, 0, 7, 0]
def dropCueOp (slot : Byte) : List Byte := 6 :: le16 0x0801 ++ [slot]
def setOutOp : List Byte := 7 :: 1 :: le32 9000

/-- The replica after, where the batch was applied, with one EDIT_DONE. -/
def applied (c : Instr) (ops : List Byte) (p : List Item → Bool) : Bool :=
  ran c (edit ops 1) fun t => p t.store.live.items && decide (t.store.live.version = 3) && t.port.routine.any fun n =>
    match n with
    | .editDone 9 77 .applied 0 3 _ => true
    | _ => false

/-- The result of the EDIT refused. -/
def refusedWith (c : Instr) (ops : List Byte) (r : Result) : Bool :=
  ran c (edit ops 1) fun t => decide (t.store.live = live3 ∧ t.port.routine = [.editDone 9 77 r 1 2 []])

/-- InsertApplies: after the anchor; a list with the id already; one with the anchor missing. -/
theorem test_insert : (edit insertOp 1).editing ⟨2, 9, 77, 1, insertOp⟩ (Batch.start live3 ⟨2, 9, 77, 1, insertOp⟩)
      (.insert (some 0x0801) 0x0804 [72, 105] 10 8 5 []) [] ∧ readCues [] = some [] ∧
    insertItem 0x0804 [72, 105] 10 8 5 [] = some ⟨0x0804, [72, 105], 10, some 5, false, false, false, .pending, []⟩ ∧
    applied .insert insertOp (fun l => decide (l.map (·.id) = [0x0801, 0x0804, 0x0802, 0x0803])) = true ∧
    refusedWith .insert (insertOp.set 4 1) .duplicateId = true ∧ refusedWith .insert (insertOp.set 2 9) .noAnchor = true ∧
    refusedWith .insert (insertOp.set 7 9) .badValue = true :=
  ⟨editing_one _ _ (by decide +kernel) (by decide +kernel), by decide +kernel⟩

/-- A list of `n` PENDING items with `k` cues each. -/
def many (n k : Nat) : List Item := (List.range n).map fun i =>
  { item1 with id := BitVec.ofNat 16 (0x1000 + i), cues := (List.range k).map fun j => { cue1 with slot := Fin.ofNat 16 j } }

/-- An INSERT with these item flags and MARKER cues in these slots, after 0x1000 or at the head. -/
def insertBytes (after : Bool) (flags : Byte) (slots : List Byte) : List Byte :=
  [1, byteOf after.toNat, 0, if after then 0x10 else 0, 4, 8, 2, 72, 105, 10, 0, 0, flags, 5, 0, 0, byteOf slots.length] ++
    slots.flatMap fun k => [k, 4, 3, 0, 0, 0, 0, 0, 0, 0, 0, 0]

/-- An EDIT of two operations, the first of them this INSERT, of which the test speaks; LIVE holds the items given. -/
def inserting (items : List Item) (ops : List Byte) (p : State → Bool) : Bool :=
  ran .insert (withLive (edit ops 2) { live3 with items := items }) p

/-- The INSERT passes, and the batch goes on with a list for which `q` holds. -/
def insertPasses (items : List Item) (ops : List Byte) (q : List Item → Bool) : Bool :=
  inserting items ops fun t => t.apply.batch.any fun b => q b.work.items

def insertFails (items : List Item) (ops : List Byte) (r : Result) : Bool :=
  inserting items ops fun t => decide (t.port.routine = [.editDone 9 77 r 1 2 []])

/-- InsertApplies: flags of 15, of 16 (log 12), and of 7 before a short duration; 16 cues and 17; a shared slot; at the head of the list. -/
theorem test_insertFields :
    insertPasses (many 2 0) (insertBytes true 15 [3, 1]) (fun l => decide (l.map (·.id) = [0x1000, 0x0804, 0x1001] ∧
      (l[1]?).map (fun i => (i.float, i.fixed, i.planShort, i.short, i.cues.map (·.slot))) = some (true, true, true, some 5, [1, 3]))) = true ∧
    insertFails (many 2 0) (insertBytes true 16 []) .badValue = true ∧ insertFails (many 2 0) (insertBytes true 7 []) .badValue = true ∧
    insertPasses (many 2 0) (insertBytes true 8 ((List.range 16).map byteOf)) (fun l => decide (l.map (·.cues.length) = [0, 16, 0])) = true ∧
    insertFails (many 2 0) (insertBytes true 8 (1 :: (List.range 16).map byteOf)) .itemCuesFull = true ∧
    insertFails (many 2 0) (insertBytes true 8 [1, 3, 1]) .slotTaken = true ∧
    insertPasses (many 2 0) (insertBytes false 8 []) (fun l => decide (l.map (·.id) = [0x0804, 0x1000, 0x1001])) = true := by
  decide +kernel

/-- InsertApplies: a list of 95 items, and of 96; the 512th cue, and the 513th. -/
theorem test_insertRoom :
    insertPasses (many 95 0) (insertBytes true 8 []) (fun l => decide (l.length = 96)) = true ∧
    insertFails (many 96 0) (insertBytes true 8 []) .itemsFull = true ∧
    insertPasses (many 31 16) (insertBytes true 8 ((List.range 16).map byteOf)) (fun l => decide (l.length = 32)) = true ∧
    insertFails (many 32 16) (insertBytes true 8 [0]) .cuesFull = true := by
  decide +kernel

/-- DeleteMoveReviveApply: the PENDING item, the one on air, and one that is not there. -/
theorem test_delete :
    (edit (deleteOp 0x0801) 1).editing ⟨2, 9, 77, 1, deleteOp 0x0801⟩ (Batch.start live3 ⟨2, 9, 77, 1, deleteOp 0x0801⟩) (.delete 0x0801) [] ∧
    (edit (moveOp 0x0801 0x0803) 1).editing ⟨2, 9, 77, 1, moveOp 0x0801 0x0803⟩
      (Batch.start live3 ⟨2, 9, 77, 1, moveOp 0x0801 0x0803⟩) (.move 0x0801 (some 0x0803)) [] ∧
    (edit (reviveOp 0x0801) 1).editing ⟨2, 9, 77, 1, reviveOp 0x0801⟩ (Batch.start live3 ⟨2, 9, 77, 1, reviveOp 0x0801⟩)
      (.revive 0x0801) [] ∧ live3.item 0x0801 = some item1 ∧ item1.status.isLocked = false ∧ item3.status.isLocked = true ∧
    applied .delete (deleteOp 0x0801) (fun l => decide (l = [item2, item3])) = true ∧
    refusedWith .delete (deleteOp 0x0803) .lockedItem = true ∧ refusedWith .delete (deleteOp 5) .noItem = true ∧
    applied .move (moveOp 0x0801 0x0803) (fun l => decide (l = [item2, item3, item1])) = true ∧
    refusedWith .move (moveOp 0x0801 0x0801) .noAnchor = true ∧ refusedWith .move (moveOp 5 0x0801) .noItem = true ∧
    applied .revive (reviveOp 0x0801) (fun l => decide (l = live3.items)) = true ∧
    refusedWith .revive (reviveOp 0x0802) .lockedItem = true :=
  by refine ⟨?_, ?_, ?_, by decide +kernel⟩ <;> apply editing_one <;> decide +kernel

/-- AmendCuesAndOutApply. -/
theorem test_amend :
    (edit amendOp 1).editing ⟨2, 9, 77, 1, amendOp⟩ (Batch.start live3 ⟨2, 9, 77, 1, amendOp⟩)
      (.amend 0x0801 none (some 300) (some (some 200)) none) [] ∧
    (edit addCueOp 1).editing ⟨2, 9, 77, 1, addCueOp⟩ (Batch.start live3 ⟨2, 9, 77, 1, addCueOp⟩)
      (.addCue 0x0801 (addCueOp.drop 3)) [] ∧
    (edit (dropCueOp 0) 1).editing ⟨2, 9, 77, 1, dropCueOp 0⟩ (Batch.start live3 ⟨2, 9, 77, 1, dropCueOp 0⟩) (.dropCue 0x0801 0) [] ∧
    (edit setOutOp 1).editing ⟨2, 9, 77, 1, setOutOp⟩ (Batch.start live3 ⟨2, 9, 77, 1, setOutOp⟩) (.setOut (some 9000)) [] ∧
    readCue (addCueOp.drop 3) = some ⟨1, 4, .fire 3 false none, 0, 7⟩ ∧
    applied .amend amendOp (fun l => decide (l.head? = some { item1 with planned := 300, short := some 200 })) = true ∧
    applied .addCue addCueOp (fun l => decide (l.head?.map (·.cues.length) = some 2)) = true ∧
    refusedWith .addCue (addCueOp.set 3 0) .slotTaken = true ∧ refusedWith .addCue (addCueOp.set 3 16) .badValue = true ∧
    applied .dropCue (dropCueOp 0) (fun l => decide (l.head?.map (·.cues) = some [])) = true ∧
    refusedWith .dropCue (dropCueOp 15) .noCue = true ∧ refusedWith .dropCue (dropCueOp 16) .badValue = true ∧
    ran .setOut (edit setOutOp 1) (fun t => decide (t.store.live.hardOut = some 9000)) = true :=
  by refine ⟨?_, ?_, ?_, ?_, by decide +kernel⟩ <;> apply editing_one <;> decide +kernel

/-- EditPassed off the end of a batch: the second operation waits. -/
theorem test_batch : ran .delete (edit (deleteOp 0x0801 ++ deleteOp 0x0801) 2) (fun t =>
    decide (t.store.live = live3 ∧ t.apply.batch.map (·.index) = some 1)) = true := by decide +kernel

def ahead (e : QueueEntry) : State := applying e

/-- GapsAndStaleEdits: a count of 0 and of 7, and an operation that cannot be read, the first of an EDIT and the second. -/
theorem test_badEdits : editRows.all (fun c =>
    ran c (edit (deleteOp 0x0801) 0) (fun t => decide (t.port.routine = [.editDone 9 77 .badValue 0 2 []])) &&
      ran c (edit (deleteOp 0x0801) 7) (fun t => decide (t.port.routine = [.editDone 9 77 .badValue 0 2 []])) &&
      ran c (edit [9, 1] 1) (fun t => decide (t.port.routine = [.editDone 9 77 .badValue 1 2 []])) &&
      ran .delete (edit (deleteOp 0x0801 ++ [2, 1]) 2) fun t =>
        ran c t fun u => decide (u.port.routine = [.editDone 9 77 .badValue 2 2 []] ∧ u.store.live = live3)) = true := by
  decide +kernel

/-- GapsAndStaleEdits, one above and one below. -/
theorem test_gap :
    ran .delete (ahead (.ordered 9 (.edit ⟨3, 9, 77, 1, deleteOp 0x0801⟩)))
      (fun t => decide (t.sync.step = .outOfStep ∧ t.store.live = live3)) = true ∧
    ran .delete (ahead (.ordered 9 (.edit ⟨1, 9, 77, 1, deleteOp 0x0801⟩)))
      (fun t => decide (t.port.routine = [.editDone 9 77 .stale 0 2 []])) = true ∧
    ran .setOut (ahead (.ordered 9 (.edit ⟨1, 9, 77, 1, deleteOp 0x0801⟩)))
      (fun t => decide (t.port.routine = [.editDone 9 77 .stale 0 2 []])) = true ∧
    ran (.hold 0) (ahead (.ordered 9 (.air 6 (.hold 7)))) (fun t => decide (t.sync.step = .outOfStep)) = true ∧
    ran (.skip 0) (ahead (.ordered 9 (.air 6 (.skip 0x0801)))) (fun t => decide (t.sync.step = .outOfStep)) = true := by decide +kernel

theorem airing_head (m : AirMsg) : (air m).airing 9 5 m := ⟨(fun h => nomatch h), rfl, [], rfl⟩

def airDone (c : Instr) (m : AirMsg) (p : List ItemStatus → Bool) : Bool :=
  ran c (air m) fun t => p (t.store.live.items.map (·.status)) && decide (t.store.live.airCount = 6)

def airRefused (c : Instr) (m : AirMsg) (r : Result) : Bool :=
  ran c (air m) fun t => decide (t.store.live = live3 ∧ t.port.routine = [.airDone 9 m (m.subject live3) r 5])

/-- StandbyAndSkipApply. -/
theorem test_standby : (air (.standby 0x0801)).airing 9 5 (.standby 0x0801) ∧ (5 : Word).toNat ≤ live3.airCount.toNat ∧
    airDone (.standby 0) (.standby 0x0801) (fun l => decide (l = [.standingBy, .pending, .onAir ⟨900, false, 0, none⟩])) = true ∧
    airRefused (.standby 0) (.standby 0x0803) .wrongState = true ∧ airRefused (.standby 0) (.standby 7) .noItem = true ∧
    airDone (.skip 0) (.skip 0x0802) (fun l => decide (l = [.pending, .skipped, .onAir ⟨900, false, 0, none⟩])) = true ∧
    airRefused (.skip 0) (.skip 0x0803) .wrongState = true :=
  ⟨airing_head _, by decide +kernel⟩

/-- TakeApplies: one frame after the start on air, and at it. -/
theorem test_take : (air (.take 0x0801 901 false)).airing 9 5 (.take 0x0801 901 false) ∧
    airDone (.take 0) (.take 0x0801 901 false)
      (fun l => decide (l = [.onAir ⟨901, false, 0, none⟩, .pending, .done 900 false 0 901 1])) = true ∧
    ran (.take 0) (air (.take 0x0801 901 false)) (fun t => t.port.routine.contains
      (.timing ⟨0x0803, 900, 901, 100, 1, 0, 1, -99, true⟩)) = true ∧
    timingOf item3 ⟨900, false, 0, none⟩ 901 true = ⟨0x0803, 900, 901, 100, 1, 0, 1, -99, true⟩ ∧
    airRefused (.take 0) (.take 0x0801 900 false) .tooEarly = true ∧ airRefused (.take 0) (.take 7 901 false) .noItem = true ∧
    airRefused (.take 0) (.take 0x0803 901 false) .wrongState = true :=
  ⟨airing_head _, by decide +kernel⟩

/-- HoldResumeCloseApply: a hold before the start counts from the start. -/
theorem test_hold : (air (.hold 890)).airing 9 5 (.hold 890) ∧ (air (.resume 5)).airing 9 5 (.resume 5) ∧ (air (.close 950)).airing 9 5 (.close 950) ∧
    airDone (.hold 0) (.hold 890) (fun l => decide (l = [.pending, .standingBy, .onAir ⟨900, false, 0, some 900⟩])) = true ∧
    airRefused (.resume 0) (.resume 5) .notHeld = true ∧
    airDone (.close 0) (.close 950) (fun l => decide (l = [.pending, .standingBy, .done 900 false 0 950 50])) = true ∧
    airRefused (.close 0) (.close 900) .tooEarly = true ∧
    ran (.close 0) (air (.close 950)) (fun t => t.port.routine.contains
      (.timing (timingOf item3 ⟨900, false, 0, none⟩ 950 false))) = true ∧
    holdEnded 10 900 930 = 40 ∧ holdEnded 10 900 900 = 10 :=
  ⟨airing_head _, airing_head _, airing_head _, by decide +kernel⟩

/-- RESUME of an item held at 920. -/
theorem test_resume : ran (.resume 0) (withLive (air (.resume 930))
      { live3 with items := [{ item3 with status := .onAir ⟨900, false, 0, some 920⟩ }] })
    (fun t => decide (t.store.live.items.map (·.status) = [.onAir ⟨900, false, 10, none⟩])) = true := by decide +kernel

/-- The item 0x0801 with the cue `c` alone at the head of a TAKE, gallery time not usable, resource 3 last fired at frame `f`. -/
def arming (c : Cue) (m : AirMsg) (f : Frame) : State :=
  let s := unusable (withLive (air m) { live3 with items := [{ item1 with cues := [c] }] })
  { s with
    cfg := some { Cfg.cleared with
      resources := Cfg.cleared.resources.set 3 { ResourceParams.cleared with repeatGap := 255, preroll := 20 }, wrapLine := some 5 }
    sched := { s.sched with resources := s.sched.resources.set 3 ⟨.idle, none, some f, none⟩ } }

def take1 : AirMsg := .take 0x0801 1100 false

/-- CuesArmed: legal at the gap and one frame inside it, HARD there, at the limit of deferral and beyond it; the other kinds; STANDBY. -/
theorem test_arming : (arming cue1 take1 845).airing 9 5 take1 ∧ (arming cue1 take1 845).usable = false ∧
    (arming cue1 take1 845).sched.armed.length ≤ 32 ∧ cue1.owner ∈ (arming cue1 take1 845).owned ∧
    ran (.take 0) (arming cue1 take1 845) (fun t => decide (t.sched.armed.map (fun e => (e.fire, e.endFrame, e.prepare)) =
      [(some 1100, some 1125, some 1080)])) = true ∧
    ran (.take 0) (arming cue1 take1 846) (fun t => decide (t.sched.armed.map (fun e => (e.fire, e.deferral, e.flags.deferred)) =
      [(some 1101, 1, true)])) = true ∧
    ran (.take 0) (arming { cue1 with body := .fire 3 true none } take1 846) (fun t => t.sched.armed.isEmpty &&
      decide (t.port.urgent = [.conflict 0x0801 { cue1 with body := .fire 3 true none } .repeatGap (some 1100) false])) = true ∧
    ran (.take 0) (arming cue1 take1 1095) (fun t => decide (t.sched.armed.map (·.deferral) = [250])) = true ∧
    ran (.take 0) (arming cue1 take1 1096) (fun t => decide (t.port.urgent = [.conflict 0x0801 cue1 .deferLimit (some 1100) false])) = true ∧
    ran (.take 0) (arming lightCue take1 0) (fun t => decide (t.sched.armed.map (·.warn) = [some 1100])) = true ∧
    ran (.take 0) (arming { lightCue with body := .light 5 none } take1 0) (fun t => t.sched.armed.isEmpty) = true ∧
    ran (.take 0) (arming pipsCue take1 0) (fun t => decide (t.sched.armed.map (·.kept) = [[⟨1075, false⟩, ⟨1100, true⟩]])) = true ∧
    ran (.take 0) (arming markerCue take1 0) (fun t => decide (t.sched.armed.map (·.fire) = [some 1100])) = true ∧
    ran (.standby 0) (arming cue1 (.standby 0x0801) 0) (fun t => decide (t.sched.armed.map (·.prepare) = [some 1000])) = true ∧
    ran (.standby 0) (arming markerCue (.standby 0x0801) 0) (fun t => t.sched.armed.isEmpty) = true :=
  ⟨airing_head _, by decide +kernel⟩

/-- CuesArmed: a clip of the item that runs from before is cancelled ahead of the arming, between an adoption and its rearming read and
after a revival beside a SET_OUT; its resource recovers (log 37). An entry from STANDBY that is refused gives back its preparation. -/
theorem test_former :
    let former (c : Cue) (m : AirMsg) (wanted : Bool) (e : Entry) (x : ResourceState) : State :=
      let s := arming c m 0
      { s with sched := { s.sched with
          armed := [e], lastDone := some (0x0801, 1050), rearmWanted := wanted
          resources := s.sched.resources.set 3 ⟨x, some e.key, some 980, some 1005⟩ } }
    let runs : Entry := { fired 980 1005 with item := 0x0801, state := .running, notified := true }
    let stood : Entry := { newEntry base.env 0x0801 { cue1 with body := .fire 3 true none } .standingBy with
      state := .prepared, prepare := some 990, preparedAt := some 990 }
    runs.fromStandby { item1 with cues := [cue1] } = false ∧ ([runs].map Entry.key).Nodup ∧
    ran (.standby 0) (former cue1 (.standby 0x0801) true runs .busy) (fun t => decide (t.sched.armed.map (·.state) = [.armed] ∧
      t.sched.resources[(3 : Fin 16)] = ⟨.recovering, none, some 980, some 1000⟩ ∧ t.sched.lastDone = none ∧
      t.port.urgent = [.cancel 0x0801 cue1 .adoption true true false])) = true ∧
    ran (.take 0) (former { cue1 with offset := 300 } take1 false runs .busy) (fun t => decide (
      t.sched.armed.map (fun e => (e.state, e.fire)) = [(.armed, some 1400)] ∧
      t.sched.resources[(3 : Fin 16)] = ⟨.recovering, none, some 980, some 1000⟩ ∧
      t.port.urgent = [.cancel 0x0801 cue1 .itemEnd true true false])) = true ∧
    stood.fromStandby { item1 with cues := [stood.cue] } = true ∧
    ran (.take 0) (former stood.cue take1 false stood .prepared) (fun t => t.sched.armed.isEmpty && decide (
      t.sched.resources[(3 : Fin 16)] = ⟨.idle, none, some 980, some 1005⟩ ∧
      t.port.urgent = [.conflict 0x0801 stood.cue .repeatGap (some 1100) true])) = true := by decide +kernel

/-- EntriesFollowTheItem: a DELETE and a REVIVE of the DONE item cancel its clip; beside a SET_OUT they leave it (R93). -/
theorem test_editedEntries :
    let done : Item := { item1 with status := .done 900 false 0 1010 110 }
    let clip : Entry := { fired 980 1005 with item := 0x0801, state := .running, notified := true }
    let busy : Resource := ⟨.busy, some clip.key, some 980, some 1005⟩
    let after (ops : List Byte) (count : Byte) (setOut : Bool) : State :=
      let s := withLive (edit ops count) { live3 with items := [done, item2, item3] }
      { s with
        apply := { s.apply with batch := some { Batch.start s.store.live ⟨2, 9, 77, count, ops⟩ with index := count.toNat - 1, setOut := setOut } }
        sched := { s.sched with armed := [clip], lastDone := some (0x0801, 1010), resources := s.sched.resources.set 3 busy } }
    let cancelled (t : State) : Bool := t.sched.armed.isEmpty && decide (t.sched.lastDone = none ∧
      t.sched.resources[(3 : Fin 16)] = ⟨.recovering, none, some 980, some 1000⟩ ∧
      t.port.urgent = [.cancel 0x0801 cue1 .edited true true false])
    ran .delete (after (deleteOp 0x0801) 1 false) cancelled = true ∧ ran .revive (after (reviveOp 0x0801) 1 false) cancelled = true ∧
    ran .delete (after (deleteOp 0x0801) 2 true) (fun t => decide (t.sched.armed = [clip] ∧ t.sched.lastDone = some (0x0801, 1010) ∧
      t.sched.resources[(3 : Fin 16)] = busy ∧ t.port.urgent = [])) = true := by decide +kernel

/-- The item on air with the entries `es`, an air message at the head, gallery time not usable. -/
def onAirWith (m : AirMsg) (held : Option Frame) (es : List Entry) : State :=
  let s := unusable (withLive (air m) { live3 with items := [{ item3 with status := .onAir ⟨900, false, 0, held⟩ }] })
  { s with sched := { s.sched with armed := es, holdFrame := held, lastDone := some (0x0700, 890) } }

/-- EntriesFollowTheItem: at the end frame a clip is cancelled, one frame before it is cut, one that ends there stays; of two
entries one is HELD; the shift is 30 frames. -/
theorem test_follow :
    ran (.close 0) (onAirWith (.close 1000) none [fired 1000 1025]) (fun t => t.sched.armed.isEmpty &&
      decide (t.port.urgent = [.cancel 0x0803 cue1 .itemEnd false false false])) = true ∧
    ran (.close 0) (onAirWith (.close 1000) none [fired 999 1024]) (fun t => decide (t.sched.armed.map (fun e => (e.endFrame, e.flags.cut)) =
      [(some 1000, true)])) = true ∧
    ran (.close 0) (onAirWith (.close 1000) none [{ entryOf markerCue with fire := some 999 }])
      (fun t => decide (t.sched.armed.map (fun e => (e.endFrame, e.flags.cut)) = [(some 1000, true)])) = true ∧
    ran (.close 0) (onAirWith (.close 1000) none [fired 975 1000, { fired 950 2000 with item := 0x0700 }])
      (fun t => decide (t.sched.armed = [fired 975 1000])) = true ∧
    ran (.hold 0) (onAirWith (.hold 1000) none [fired 1000 1025, { entryOf markerCue with fire := some 1001 }])
      (fun t => decide (t.sched.holdFrame = some 1000 ∧ t.sched.armed.map (·.state) = [.armed, .held])) = true ∧
    ran (.resume 0) (onAirWith (.resume 1030) (some 1000) [{ fired 1001 1026 with state := .held, previous := some .armed }])
      (fun t => decide (t.sched.armed.map (fun e => (e.state, e.fire, e.endFrame)) = [(.armed, some 1031, some 1056)])) = true := by
  decide +kernel

/-! ## The store's other operations -/

/-- The base with LIVE of three items and `op` holding the store. -/
def holding (op : StoreOp) : State :=
  let s := withLive base live3
  { s with store := { s.store with holder := some op } }

/-- FreezeCopyAndPartRead. -/
theorem test_freeze :
    ran .freezeCopy { holding .freezeCopy with apply := { base.apply with queue := [.marker false] }, sync := { base.sync with responder := .freezing } }
      (fun t => decide (t.store.shadow = live3 ∧ t.store.use = .frozen ∧ t.store.holder = some (.partRead 1))) = true ∧
    ran .freezeCopy { holding .freezeCopy with apply := { base.apply with queue := [.marker false] } }
      (fun t => decide (t.store.use = .empty ∧ t.store.shadow = .empty)) = true ∧
    ran .freezeCopy { holding .freezeCopy with
        store := { (holding .freezeCopy).store with dropped := true, use := .copying }
        apply := { base.apply with queue := [.marker false] }, sync := { base.sync with responder := .freezing } }
      (fun t => decide (t.store.use = .empty ∧ t.store.shadow = .empty)) = true ∧
    ran .partRead (holding (.partRead 1)) (fun t => decide (t.line.bulk = [⟨.part 1 (part1Content .empty), 0, false⟩])) = true ∧
    ran .partRead { holding (.partRead 1) with store := { (holding (.partRead 1)).store with dropped := true, use := .frozen } }
      (fun t => decide (t.line.bulk = [] ∧ t.store.use = .empty)) = true := by decide +kernel

/-- FreezeCopyAndPartRead: markers of abandoned streams behind the one that is copied, or dropped, leave without a copy, and the stream
just frozen goes on. -/
theorem test_voidMarkers :
    let s : State := { holding .freezeCopy with
      apply := { base.apply with queue := [.marker false, .marker true, .marker true] }, sync := { base.sync with responder := .freezing } }
    ran .freezeCopy s (fun t => decide (t.apply.queue = [] ∧ t.sync.responder = .sending ∧ t.store.use = .frozen ∧
      t.store.shadow = live3)) = true ∧
    ran .freezeCopy { s with store := { s.store with dropped := true, use := .copying } } (fun t => decide (t.apply.queue = [] ∧
      t.sync.responder = .freezing ∧ t.store.use = .empty ∧ t.store.holder = none)) = true := by decide +kernel

/-- A marker queued behind an apply is void once its stream is abandoned: the round begun since makes no copy at it (R170). -/
theorem test_abandoned :
    let s : State := { applying (.ordered 9 (.air 5 (.skip 0x0801))) with sync := { base.sync with responder := .freezing } }
    let t := ({ s with apply := { s.apply with queue := s.apply.queue ++ [.marker false] } } : State).abandonResponder
    t.apply.queue = s.apply.queue ++ [.marker true] ∧
    ran (.skip 0) { t with sync := { t.sync with responder := .freezing } } (fun u => decide (u.apply.queue = [] ∧
      u.sync.responder = .freezing ∧ u.store.holder ≠ some .freezeCopy)) = true := by decide +kernel

def assembling (r : Replica) (op : StoreOp) (y : Sync) : State :=
  { stepped { y with step := .catchingUp, source := some 9 } with store := { base.store with shadow := r, use := .assembling, holder := some op } }

/-- A replica without items, with its check word. -/
def snapshot : Replica := Replica.sealed ⟨3, 1, none, 0, []⟩

/-- PartWriteAndShadowCheck: a part that passes, the last one, one that fails, and the check both ways. -/
theorem test_partWrite :
    (Replica.empty.writePart 1 part1).isSome = true ∧ Replica.empty.writePart 2 [1] = none ∧
    ran .partWrite (assembling .empty (.partWrite 1 part1) { Sync.reset with phase := .receiving, count := some 3 })
      (fun t => decide (t.sync.written = 1 ∧ t.store.shadow.version = 2)) = true ∧
    ran .partWrite (assembling .empty (.partWrite 2 item1.bytes) { Sync.reset with phase := .receiving, count := some 1, written := 1 })
      (fun t => decide (t.sync.phase = .checking ∧ t.store.shadow.items = [item1])) = true ∧
    ran .partWrite (assembling .empty (.partWrite 2 [1]) { Sync.reset with phase := .receiving })
      (fun t => decide (t.sync.step = .outOfStep)) = true ∧
    ran .shadowCheck (assembling snapshot .shadowCheck { Sync.reset with phase := .checking })
      (fun t => decide (t.store.holder = some .bankSwap)) = true ∧
    ran .shadowCheck (assembling { snapshot with check := 0 } .shadowCheck { Sync.reset with phase := .checking })
      (fun t => decide (t.sync.step = .outOfStep)) = true := by decide +kernel

/-- BankSwapAdopts: station 1 owns the ids to 0x0803, so its next serial is 4. -/
theorem test_bankSwap :
    ran .bankSwap { assembling live3 .bankSwap { Sync.reset with phase := .swapping } with straps := ⟨1, true, true⟩ }
      (fun t => decide (t.store.live = live3 ∧ t.sync.step = .inStep ∧ t.apply.serial = 4 ∧ t.store.holder = some .rearmRead)) = true := by
  decide +kernel

/-- ReadsComplete. -/
theorem test_reads :
    ran (.rearmRead 0) { holding .rearmRead with sched := { base.sched with rearmWanted := true, armed := [entry1] } }
      (fun t => !t.sched.rearmWanted && t.sched.armed.isEmpty) = true ∧
    ran (.takeoverRead 0) { holding .takeoverRead with sched := { base.sched with takeover := some ⟨none, 990, false, []⟩ } }
      (fun t => decide (t.sched.takeover = none)) = true ∧
    ran .projectionRead (holding .projectionRead) (fun t => decide (t.timing.projection = live3.projection ∧ t.timing.projection.remaining = 750)) = true ∧
    ran .itemReadComplete (holding (.itemRead 0x0802)) (fun t => decide (t.port.routine = [.itemReply live3.summary (some item2)])) = true ∧
    ran .orderReadComplete (holding .orderRead) (fun t => decide (t.port.routine = [.orderReply live3.summary [0x0801, 0x0802, 0x0803]])) = true := by
  decide +kernel

/-- The item on air from 900 with the cue `c`, read for the scheduler while gallery time is not usable. -/
def reading (op : StoreOp) (c : Cue) (k : Option Takeover) : State :=
  let s := unusable (withLive (holding op) { live3 with items := [{ item3 with cues := [c] }] })
  { s with store := { s.store with holder := some op }, sched := { s.sched with takeover := k } }

/-- ReadsArmTheItem: at adoption a MARKER lacking an entry; at a takeover one the partner has done, and one it has not. -/
theorem test_readsArm :
    ran (.rearmRead 0) (reading .rearmRead markerCue none) (fun t => decide (t.sched.armed.map (·.fire) = [some 900])) = true ∧
    ran (.takeoverRead 0) (reading .takeoverRead markerCue (some ⟨some 900, 1000, false, []⟩)) (fun t => t.sched.armed.isEmpty) = true ∧
    ran (.takeoverRead 0) (reading .takeoverRead markerCue (some ⟨some 899, 1000, false, []⟩)) (fun t => decide (t.sched.armed.length = 1)) = true ∧
    ran (.takeoverRead 0) (reading .takeoverRead markerCue (some ⟨none, 1000, true, []⟩)) (fun t => t.sched.armed.isEmpty) = true ∧
    ran (.takeoverRead 0) (reading .takeoverRead markerCue (some ⟨none, 1000, false, [(0x0803, 3)]⟩)) (fun t => t.sched.armed.isEmpty) = true ∧
    ran (.takeoverRead 0) (reading .takeoverRead lightCue (some ⟨none, 899, false, []⟩)) (fun t => decide (t.sched.armed.length = 1)) = true := by
  decide +kernel

/-! ## The host port -/

def slipNotice : Notice := .lock ⟨.slip, none, .locked, false, false, none, 5, 0, 0, none, none⟩

def noticed : State := { base with port := { base.port with urgent := [slipNotice], routine := [.relayIn 9 4 [1]] } }

/-- A host transfer is in progress. -/
def during (x : Transfer) (s : State) : State := s.withTransfer (some x)

/-- PortTransfers: whole, cut short, and without a place; at one moment and taking its time. -/
theorem test_requestWrite :
    ran (.requestWrite (.whole 2) [14, 9]) base (fun t => decide (t.port.requests = [[14, 9]])) = true ∧
    ran (.requestWrite (.whole 2) [14]) base (fun t => t.port.requestLost && t.port.requests.isEmpty) = true ∧
    ran (.requestWrite (.whole 1) [14]) { base with port := { base.port with requests := [[1], [1], [1], [1]] } }
      (fun t => t.port.requestLost) = true ∧
    ran (.requestWrite .begins []) base (fun t => decide (t = during .requestWrite base)) = true ∧
    ran (.requestWrite (.ends 2) [14, 9]) (during .requestWrite base) (fun t => decide (t.port.requests = [[14, 9]] ∧
      t.port.transfer = none)) = true ∧
    ran (.invalidTransfer 1 []) (during .requestWrite base) (fun t => decide (t = base)) = true ∧
    ran (.requestWrite (.whole 1) [14]) (during .portControl base) (fun t => decide (t = during .portControl base)) = true ∧
    ran (.requestWrite (.ends 1) [14]) (during .ignored base) (fun t => decide (t = base)) = true := by decide +kernel

/-- PortTransfers. -/
theorem test_port :
    ran (.noticeRead (.whole true)) noticed (fun t => t.port.urgent.isEmpty && !t.port.routine.isEmpty) = true ∧
    ran (.noticeRead (.whole true)) { noticed with port := { noticed.port with urgent := [] } } (fun t => t.port.routine.isEmpty) = true ∧
    ran (.noticeRead (.whole false)) noticed (fun t => decide (t.port.urgent.length = 1)) = true ∧
    ran (.noticeRead (.whole true)) base (fun t => decide (t.port.out = .empty [0, 0])) = true ∧
    ran .portStatusRead { base with port := { base.port with requestLost := true } } (fun t => !t.port.requestLost) = true ∧
    ran (.noticeRead (.whole true)) { noticed with run := .reset } (fun t => decide (t.port = noticed.port)) = true ∧
    (base.statusBytes.take 9 = [4, 0, 0, 32, 100, 1, 2, 0, 0]) ∧
    ran (.portControlWrite (.whole 3)) noticed (fun t => t.port.interrupt) = true ∧
    ran (.portControlWrite .begins) noticed (fun t => decide (t = during .portControl noticed)) = true ∧
    ran (.portControlWrite (.ends 3)) (during .portControl noticed) (fun t => t.port.interrupt && t.port.transfer.isNone) = true ∧
    ran (.invalidTransfer 9 []) base (fun t => decide (t = base)) = true := by decide +kernel

/-- PortTransfers: a ROUTINE read is kept over an URGENT notice posted meanwhile, its place is free from its last byte alone, and one cut
short leaves its notice. -/
theorem test_noticeRead :
    let full : State := { base with port := { base.port with routine := List.replicate 40 (.relayIn 9 4 [1]) } }
    let reading := full.modPort Port.beginRead
    ran (.noticeRead .begins) full (fun t => decide (t = reading ∧ t.port.out = .notice (.relayIn 9 4 [1]) (Notice.relayIn 9 4 [1]).transfer)) = true ∧
    ran (.noticeRead .lastByte) (reading.post slipNotice) (fun t => decide (t.port.urgent = [slipNotice] ∧
      t.port.routine.length = 39 ∧ t.port.transfer = some .carried)) = true ∧
    (reading.post (.relayIn 8 4 [2])).port.routineLost = true ∧
    ran (.noticeRead .lastByte) reading (fun t => decide ((t.post (.relayIn 8 4 [2])).port.routine.length = 40)) = true ∧
    ran (.noticeRead .ends) reading (fun t => decide (t.port.routine.length = 40 ∧ t.port.transfer = none)) = true ∧
    ran (.noticeRead .lastByte) base (fun t => decide (t = base)) = true ∧
    ran (.noticeRead .begins) base (fun t => decide (t.port.transfer = some .carried ∧ t.port.out = .empty [0, 0])) = true ∧
    ran (.noticeRead .ends) (during .carried base) (fun t => decide (t = base)) = true ∧
    ran (.noticeRead .begins) noticed (fun t => decide (t.port.transfer = some (.notice true))) = true := by decide +kernel

/-- The fields of a CONFIGURE that keep every default but the pip tones and the pair mode none. -/
def configFields : List Byte :=
  .replicate 101 0 ++ [255, 255, 255, 255, 4, 24, 255, 0, 0, 0, 255]

def starting (f : List Byte) : State := { State.reset with port := { Port.reset with requests := [1 :: f] } }

/-- ConfigureHandled: fields in range, a tone out of range, and a station in RUN. -/
theorem test_configure : reqKind (1 :: configFields) = some .configure ∧ configError 0 configFields = none ∧
    configError 0 (configFields.set 105 3) = some (.pipTone 0) ∧ configError 0 (configFields.set 0 6) = some .rate ∧
    configError 0 (configFields.set 14 15) = none ∧ configError 0 (configFields.set 14 16) = some (.resource 1) ∧
    ran (.configure 9) (starting configFields) (fun t => decide (t.run = .run ∧ t.pair.role = .solo ∧ t.tb.watchFrom = 9)) = true ∧
    ran (.configure 9) (starting (configFields.set 105 3)) (fun t =>
      decide (t.port.routine = [.reqRefused (some .configure) .badRequest (.configure (some (.pipTone 0)))])) = true ∧
    ran (.configure 9) (asking (1 :: configFields)) (fun t =>
      decide (t.port.routine = [.reqRefused (some .configure) .notInStart (.configure none)])) = true := by decide +kernel

/-- ConfigureHandled: in START each request is refused. -/
theorem test_notConfigured : requestRows.length = 14 ∧
    requestRows.all (fun x => (List.range 17).any fun k =>
      let r : List Byte := [BitVec.ofNat 8 k]
      decide (reqKind r = some x.1) && ran x.2 { State.reset with port := { Port.reset with requests := [r] } } fun t =>
        decide (t.port.routine = [.reqRefused (some x.1) .notConfigured (x.1.detail [])])) = true := by decide +kernel

theorem asked_of (k : ReqKind) (c : Byte) (f : List Byte) (h : reqKind (c :: f) = some k) : (asking (c :: f)).asked k f :=
  ⟨rfl, rfl, c :: f, [], rfl, h, rfl⟩

/-- PROPOSE of one INSERT without its id, base version 0. -/
def proposal : List Byte := [0, 0, 0, 0, 77, 0, 1] ++ [1, 0, 0, 0, 1, 72, 10, 0, 0, 0, 0, 0, 0, 0]

/-- ProposeHandled: the id is station 4's first; with the queue full the serial moves on all the same. -/
theorem test_propose : (asking (3 :: proposal)).asked .propose proposal ∧
    (readPropose proposal).isSome = true ∧
    ran .propose (asking (3 :: proposal)) (fun t => decide (t.apply.serial = 1 ∧ t.line.routine =
      [⟨.edit ⟨0, 4, 77, 1, [1, 0, 0, 0, 0, 32, 1, 72, 10, 0, 0, 0, 0, 0, 0, 0]⟩, 0, false⟩])) = true ∧
    ran .propose { asking (3 :: proposal) with line := { base.line with routine := .replicate 8 ⟨.ask, 0, false⟩ } }
      (fun t => decide (t.apply.serial = 1 ∧ t.port.routine.length = 1)) = true ∧
    ran .propose (asking (3 :: proposal.set 0 1)) (fun t => decide (t.apply.serial = 0 ∧ t.port.routine.length = 1)) = true ∧
    ran .propose (asking [3, 0]) (fun t => decide (t.port.routine = [.reqRefused (some .propose) .badRequest (.propose none none)])) = true ∧
    ran .propose { asking (3 :: proposal) with line := { base.line with muted := true } }
      (fun t => decide (t.port.routine.length = 1 ∧ t.line.routine = [])) = true ∧
    ran .propose { asking (3 :: proposal) with sync := Sync.reset } (fun t => decide (t.port.routine.length = 1 ∧ t.line.routine = [])) = true :=
  ⟨asked_of _ _ _ (by decide), by decide +kernel⟩

/-- The message that a request of the base puts in the URGENT queue. -/
def offers (c : Instr) (r : List Byte) (m : OutMsg) : Bool := ran c (asking r) fun t => decide (t.line.urgent = [⟨m, 0, false⟩])

/-- AirRequestsOfferOrRefused. -/
theorem test_airRequests :
    (asking [4, 1, 8]).asked .standby [1, 8] ∧ (asking [5, 1, 8, 250, 0]).asked .take [1, 8, 250, 0] ∧ (asking [6]).asked .hold [] ∧
    (asking [7]).asked .resume [] ∧ (asking [8, 1, 8]).asked .skip [1, 8] ∧ (asking [9]).asked .close [] ∧
    readTake [1, 8, 250, 0] = some (0x0801, 250, false) ∧
    offers .standbyRequest [4, 1, 8] (.air 0 (.standby 0x0801)) = true ∧
    offers .takeRequest [5, 1, 8, 250, 0] (.air 0 (.take 0x0801 1250 false)) = true ∧
    offers .holdRequest [6] (.air 0 (.hold 1000)) = true ∧ offers .resumeRequest [7] (.air 0 (.resume 1000)) = true ∧
    offers .skipRequest [8, 1, 8] (.air 0 (.skip 0x0801)) = true ∧ offers .closeRequest [9] (.air 0 (.close 1000)) = true :=
  by refine ⟨?_, ?_, ?_, ?_, ?_, ?_, by decide +kernel⟩ <;> apply asked_of <;> decide

def refusedBy (c : Instr) (s : State) (r : RefuseReason) : Bool :=
  ran c s fun t => t.port.routine.any fun n => match n with
    | .reqRefused _ x _ => decide (x = r)
    | _ => false

/-- AirRequestsOfferOrRefused, each check; leads 0 and 251 are out of range. -/
theorem test_takeRefused : (asking [5, 1, 8, 0, 0]).asked .take [1, 8, 0, 0] ∧ readTake [1, 8, 0, 0] = none ∧ readTake [1, 8, 251, 0] = none ∧
    refusedBy .takeRequest { asking [5, 1, 8, 9, 0] with straps := ⟨4, true, false⟩ } .notDirector = true ∧
    refusedBy .takeRequest { asking [5, 1, 8, 9, 0] with line := { base.line with muted := true } } .muted = true ∧
    refusedBy .takeRequest { asking [5, 1, 8, 9, 0] with sync := Sync.reset } .notInStep = true ∧
    refusedBy .takeRequest (asking [5, 1, 8, 0, 0]) .badRequest = true ∧
    refusedBy .takeRequest (unusable (asking [5, 1, 8, 9, 0])) .notLocked = true ∧
    refusedBy .takeRequest { asking [5, 1, 8, 9, 0] with line := { base.line with urgent := .replicate 4 ⟨.mark 0, 0, false⟩ } } .queueFull = true :=
  ⟨asked_of _ _ _ (by decide), by decide +kernel⟩

/-- AirRequestsOfferOrRefused: every row, by each check in its order; the form of a HOLD. -/
theorem test_airRefused :
    let state (x : ReqKind × Instr) (f : State → State) : State := f (asking (match x.1 with
      | .standby => [4, 1, 8]
      | .take => [5, 1, 8, 9, 0]
      | .hold => [6]
      | .resume => [7]
      | .skip => [8, 1, 8]
      | _ => [9]))
    let full (s : State) : State := { s with line := { s.line with urgent := .replicate 4 ⟨.mark 0, 0, false⟩ } }
    airRows.length = 6 ∧
    airRows.all (fun x => refusedBy x.2 (state x fun s => { s with straps := ⟨4, true, false⟩, sync := Sync.reset }) .notDirector
      && refusedBy x.2 (state x fun s => { s with line := { base.line with muted := true }, sync := Sync.reset }) .muted
      && refusedBy x.2 (state x fun s => { s with sync := Sync.reset }) .notInStep
      && refusedBy x.2 (state x full) .queueFull
      && (refusedBy x.2 (state x fun s => unusable (full s)) .notLocked == decide (x.1 = .take ∨ x.1 = .hold))) = true ∧
    refusedBy .holdRequest (asking [6, 0]) .badRequest = true ∧ refusedBy .skipRequest (asking [8, 1]) .badRequest = true := by decide +kernel

def pairAsking (r : Role) (q : List Byte) : State := { backup r with port := { base.port with requests := [q] } }

/-- RelayAndYieldRequests, and a request of no kind. -/
theorem test_yieldRequest : (pairAsking .active [10]).asked .yield [] ∧ (asking [11, 9, 65]).asked .relay [9, 65] ∧
    readRelay 4 [9, 65] = some (9, [65]) ∧ readRelay 4 [4, 65] = none ∧ reqKind [0] = none ∧ reqKind [17] = none ∧ reqKind [] = none ∧
    ran .yieldRequest (pairAsking .active [10]) (fun t => decide (t.pair.yield = .queued ∧ t.line.urgent = [⟨.yield 9, 0, false⟩])) = true ∧
    refusedBy .yieldRequest (pairAsking .standby [10]) .notActive = true ∧
    refusedBy .yieldRequest (asking [10, 0]) .notPaired = true ∧ refusedBy .yieldRequest (pairAsking .active [10, 0]) .badRequest = true ∧
    refusedBy .yieldRequest { pairAsking .standby [10] with line := { base.line with muted := true } } .muted = true ∧
    refusedBy .yieldRequest { pairAsking .active [10] with pair := ⟨.active, .pending, 3, [], false⟩ } .badRequest = true ∧
    refusedBy .relayRequest { asking [11, 4, 65] with line := { base.line with muted := true } } .muted = true ∧
    refusedBy .relayRequest { asking [11, 9, 65] with line := { base.line with routine := .replicate 8 ⟨.ask, 0, false⟩ } } .queueFull = true ∧
    ran .relayRequest (asking [11, 9, 65]) (fun t => decide (t.line.routine = [⟨.relay 9 [65], 0, false⟩])) = true ∧
    refusedBy .unknownRequest (asking [17]) .badRequest = true ∧ refusedBy .relayRequest (asking [11, 4, 65]) .badRequest = true ∧
    refusedBy .relayRequest (asking [11]) .badRequest = true ∧
    refusedBy .yieldRequest { pairAsking .active [10] with line := { base.line with urgent := .replicate 4 ⟨.mark 0, 0, false⟩ } }
      .queueFull = true :=
  ⟨⟨rfl, rfl, [10], [], rfl, by decide, rfl⟩, asked_of _ _ _ (by decide), by decide +kernel⟩

/-- ReadRequestsHandled; 31 is the last number a field takes. -/
theorem test_readRequests : (asking [12, 1, 8]).asked .readItem [1, 8] ∧ (asking [13]).asked .readOrder [] ∧
    (asking [14, 31]).asked .readPeer [31] ∧ (asking [15]).asked .readTiming [] ∧ (asking [16, 0]).asked .readArmed [0] ∧
    readNumber [31] = some 31 ∧ readNumber [32] = none ∧
    ran .readItem (asking [12, 1, 8]) (fun t => t.port.inHand && decide (t.store.holder = some (.itemRead 0x0801))) = true ∧
    ran .readOrder (asking [13]) (fun t => decide (t.store.holder = some .orderRead)) = true ∧
    ran .readPeer (asking [14, 31]) (fun t => decide (t.port.routine = [.peerReply .reset])) = true ∧
    ran .readPeer (asking [14, 4]) (fun t => decide (t.port.routine = [.ownReply none base.presence {}])) = true ∧
    ran .readTiming (asking [15]) (fun t => decide (t.port.routine.length = 1)) = true ∧
    ran .readArmed (asking [16, 0]) (fun t => decide (t.port.routine.length = 1)) = true ∧
    refusedBy .readItem (asking [12, 1]) .badRequest = true ∧ refusedBy .readOrder (asking [13, 0]) .badRequest = true ∧
    refusedBy .readPeer (asking [14, 32]) .badRequest = true ∧ refusedBy .readTiming (asking [15, 0]) .badRequest = true ∧
    refusedBy .readArmed (asking [16, 32]) .badRequest = true :=
  by refine ⟨?_, ?_, ?_, ?_, ?_, by decide +kernel⟩ <;> apply asked_of <;> decide

/-! ## Encodings -/

/-- TransmissionIsHeard: a MARK written out from chapter 12, and an item at part 2. -/
theorem test_transmission : OutMsg.wf (.mark 0x01020304) ∧ base.takesDest 255 = true ∧
    ((OutMsg.mark 0x01020304).transmission 2).take 14 = [0x33, 0x33, 0x33, 0x33, 0x6B, 255, 2, 1, 4, crc8 [255, 2, 1, 4], 4, 3, 2, 1] ∧
    base.classify (rx 2 (.part 2 item2.bytes)) = .good 2 255 (.part 2 item2.bytes) :=
  ⟨trivial, by decide +kernel⟩

/-- ItemAndPresenceRoundTrip: an item with a cue, its bytes written out from chapter 12. -/
theorem test_item : item1.wf ∧ presence1.wf ∧ readItem item1.bytes = some item1 ∧
    item1.bytes = [1, 8, 2, 65, 66, 244, 1] ++ List.replicate 26 0 ++ [1] ++
      [0, 4, 8, 0, 0, 3, 25, 0, 0, 0, 7, 0] ∧
    readPresence presence1.bytes = some presence1 := by
  refine ⟨⟨by decide, by decide, by decide, ?_, trivial⟩, by simp [Presence.wf, presence1], by decide +kernel, by decide +kernel, by decide +kernel⟩
  intro c hc
  simp only [item1, List.mem_singleton] at hc
  subst hc
  simp [cue1, CueBody.wf, Lengths.wf]

end Sys2Proof.Tests
end

section
/-! PROOFS. Reset meets the bounds and the laws (O5). -/

namespace Sys2Proof.Machine

/-- Gallery time is not usable at reset, so no light line is bound to its claims. -/
theorem State.reset_lightsFollow : State.reset.lightsFollow := by
  refine ⟨fun _ => rfl, fun h => ?_⟩
  simp [State.reset, State.resetTo, State.usable, Timebase.reset, LockState.usable] at h

/-- Settles O5: each law at the reset state. -/
theorem invariantsAtReset : Obligations.InvariantsAtReset :=
  ⟨State.resetTo_within _ _ _, State.resetTo_placed _ _ _, State.resetTo_lawful _ _ _, State.reset_lightsFollow⟩

end Sys2Proof.Machine
end

section
/-! PROOFS. What a command answers, and the three laws through every command and every step (O6). -/

namespace Sys2Proof.Machine

variable {s : State}

/-! ## Answers -/

/-- Of an answer: the next state, where it is one, satisfies `P`. -/
def Leads (P : State → Prop) (o : Outcome) : Prop := ∀ t, o = .next t → P t

theorem leads_next {P : State → Prop} (h : P s) : Leads P (.next s) := by
  rintro t ⟨⟩; exact h

/-- A law that does not look at the queue of commands, and that every command keeps, is kept by every step. -/
theorem step_leads {P : State → Prop} (hp : ∀ s q, P s → P { s with pending := q })
    (he : ∀ c s, P s → Leads P (exec c s)) (h : P s) : Leads P (step s) := by
  unfold step
  split
  · exact leads_next h
  · exact he _ _ (hp _ _ h)

/-! ## The bounds, command by command -/

theorem State.done_within (h : s.within) : Leads State.within s.done := leads_next (State.followLights_within h)

theorem State.configure_within (h : s.within) (c : Cfg) : (s.configure c).within := by
  have hc : ({ s with cfg := some c, run := .run } : State).within := h
  simp (maxDischargeDepth := 40) [State.configure, hc]

/-- Every command keeps the bounds of R72, R130, R189, R194 and R196. -/
theorem exec_within (h : s.within) (c : Instr) : Leads State.within (exec c s) := by
  cases c
  case resetPin | resetEnd => exact leads_next (State.resetNow_within ..)
  case referencePulse | refLost | flywheelPulse | silence | acquireTimeout | holdoverExpired | warnPoint | expiryPoint |
      endingRecordDropped | peerAbsent | founded | askWaitExpires | askRetryExpires | gapTimeout | collision |
      transmissionComplete =>
    exact State.done_within (State.inRun_within h fun t ht => by simp (maxDischargeDepth := 40) [ht])
  case recoveryEnds | pipStarts | pipEnds | responseWaitExpires | yieldFailed | transmitAttempt | backoffExpires =>
    exact leads_next (State.inRun_within h fun t ht => by simp (maxDischargeDepth := 40) [ht])
  case scan | itemEndCancel =>
    exact State.done_within (State.inRun_within h fun t ht => State.emit_within ht fun env m hm => by
      simp [hm, Emit.within_closed])
  case shadowRecordsExpire =>
    exact leads_next (State.inRun_within h fun t ht => State.emit_within ht fun env m hm => by
      simp [hm, Emit.within_closed])
  case rearmRead | takeoverRead =>
    exact State.done_within (State.live_within h fun t ht => by
      simp +contextual (maxDischargeDepth := 40) [ht, Emit.within_closed])
  case markCapture =>
    refine leads_next (State.live_within h fun t ht => ?_)
    split
    · exact State.modLine_within (State.modTb_within.mpr ht) (Nat.le_refl _) (Nat.le_refl _) (Nat.le_refl _)
    · exact State.modLine_within ht (Nat.le_refl _) (Nat.le_refl _) (Nat.le_refl _)
  case receiveOrderedMessage | receiveMark | receivePresence | receiveAsk | receiveReady | receiveRelay | receiveYield =>
    refine State.done_within (State.receive_within h fun n b m g hg t ht => ?_)
    split at hg <;> cases hg
    simp [State.unlessOwn, ht]
  case receivePartOpening | receivePart =>
    refine State.done_within (State.receive_within h fun n b m g hg t ht => ?_)
    repeat' split at hg
    all_goals cases hg
    simp [ht]
  case badReception => exact State.done_within (State.reception_within h fun t ht => by simp [ht])
  case insert | delete | move | amend | addCue | dropCue | setOut | revive => exact State.done_within (by simp [h])
  case standby | take | hold | resume | skip | close =>
    exact State.done_within (State.live_within h fun t ht => by simp [ht])
  case storeGrant => exact leads_next (by simp [h])
  case freezeCopy | shadowCheck | bankSwap | projectionRead => exact State.done_within (by simp (maxDischargeDepth := 40) [h])
  case partRead | partWrite => exact State.done_within (by split <;> simp [h])
  case itemReadComplete | orderReadComplete => exact leads_next (by split <;> simp (maxDischargeDepth := 40) [h])
  case requestWrite n b =>
    cases n
    · exact leads_next (State.wholeTransfer_within h fun p hp => Port.takeRequest_within hp _ _)
    · exact leads_next (State.beginTransfer_within h fun p hp => hp)
    · exact leads_next (State.endTransfer_within h fun p hp => Port.takeRequest_within hp _ _)
  case noticeRead n =>
    cases n
    · exact leads_next (State.wholeTransfer_within h fun p hp => Port.readNotice_within hp _)
    · exact leads_next (State.beginTransfer_within h fun p hp => Port.beginRead_within hp)
    · exact leads_next ⟨Port.lastByte_within h.1, h.2⟩
    · exact leads_next (State.endTransfer_within h fun p hp => hp)
  case portControlWrite n =>
    cases n
    · exact leads_next (State.wholeTransfer_within h fun p hp => hp)
    · exact leads_next (State.beginTransfer_within h fun p hp => hp)
    · exact leads_next (State.endTransfer_within h fun p hp => hp)
  case portStatusRead => exact leads_next (State.wholeTransfer_within h fun p hp => hp)
  case invalidTransfer => exact leads_next (State.endTransfer_within h fun p hp => hp)
  case configure =>
    refine leads_next (State.live_within h fun t ht => State.handle_within ht fun f u hu => ?_)
    repeat' split
    all_goals simp [hu, State.configure_within]
  case restart => exact leads_next (State.handle_within h fun f t ht => by simp [ht, State.resetNow_within])
  case standbyRequest | takeRequest | holdRequest | resumeRequest | skipRequest | closeRequest =>
    exact leads_next (State.handle_within h fun f t ht => by simp [ht])
  case propose | yieldRequest | relayRequest =>
    exact leads_next (State.handle_within h fun f t ht => by split <;> simp [ht])
  case readItem | readOrder | readPeer | readTiming | readArmed =>
    exact leads_next (State.handle_within h fun f t ht => State.readRequest_within ht fun a => by simp [ht])
  case unknownRequest =>
    refine leads_next ?_
    repeat' split
    all_goals simp [h]

/-! ## The places of the apply queue, command by command -/

theorem State.done_placed (h : s.placed) : Leads State.placed s.done := leads_next (State.followLights_placed.mpr h)

theorem State.configure_placed (h : s.placed) (c : Cfg) : (s.configure c).placed := by
  have hc : ({ s with cfg := some c, run := .run } : State).placed := h
  simp [State.configure, hc]

/-- A start delimiter is no transmission (R138). -/
theorem State.markCapture_placed (h : s.placed) :
    (s.modLine fun l => { l with rx := if l.transmitting then .own else .inRun }).placed := by
  obtain ⟨hw, hr, hm⟩ := h
  refine ⟨hw, hr, fun ht => ?_⟩
  have ht' : s.line.transmitting = true := ht
  obtain ⟨-, hx⟩ := hm ht'
  exact ⟨by simp [State.modLine, ht'], hx⟩

/-- Every command keeps the law of the apply queue's places (R22). -/
theorem exec_placed (h : s.placed) (c : Instr) : Leads State.placed (exec c s) := by
  cases c
  case resetPin | resetEnd => exact leads_next (State.resetNow_placed ..)
  case referencePulse | refLost | flywheelPulse | silence | acquireTimeout | holdoverExpired | warnPoint | expiryPoint |
      endingRecordDropped | peerAbsent | founded | askWaitExpires | askRetryExpires | gapTimeout | collision |
      transmissionComplete | scan | itemEndCancel =>
    exact State.done_placed (State.inRun_placed h fun t ht => by simp +contextual (maxDischargeDepth := 40) [ht])
  case recoveryEnds | pipStarts | pipEnds | responseWaitExpires | yieldFailed | transmitAttempt | shadowRecordsExpire =>
    exact leads_next (State.inRun_placed h fun t ht => by simp (maxDischargeDepth := 40) [ht])
  case backoffExpires =>
    refine leads_next (State.inRun_placed h fun t ht => ?_)
    have hk : (t.modLine fun l => { l with backoff := none }).placed :=
      State.modLine_placed ht ⟨rfl, id, fun _ x hx => ⟨x, hx, rfl⟩⟩
    simp [ht, hk]
  case rearmRead | takeoverRead =>
    exact State.done_placed (State.live_placed h fun t ht => by simp (maxDischargeDepth := 40) [ht])
  case markCapture =>
    refine leads_next (State.live_placed h fun t ht => ?_)
    split
    · exact State.markCapture_placed ((State.modTb_placed _).mpr ht)
    · exact State.modLine_placed ht ⟨rfl, fun hr => absurd hr (by simp), fun _ x hx => ⟨x, hx, rfl⟩⟩
  case receiveOrderedMessage | receiveMark | receivePresence | receiveAsk | receiveReady | receiveRelay | receiveYield =>
    refine State.done_placed (State.receive_placed h fun n b m g hg t ht => ?_)
    split at hg <;> cases hg
    simp [State.unlessOwn, ht]
  case receivePartOpening | receivePart =>
    refine State.done_placed (State.receive_placed h fun n b m g hg t ht => ?_)
    repeat' split at hg
    all_goals cases hg
    simp [ht]
  case badReception => exact State.done_placed (State.reception_placed h fun t ht hs => State.reject_placed ht hs _)
  case insert | delete | move | amend | addCue | dropCue | setOut | revive => exact State.done_placed (by simp [h])
  case standby | take | hold | resume | skip | close =>
    exact State.done_placed (State.live_placed h fun t ht => by simp [ht])
  case storeGrant => exact leads_next (by simp [h])
  case freezeCopy | shadowCheck | bankSwap | projectionRead => exact State.done_placed (by simp (maxDischargeDepth := 40) [h])
  case partRead | partWrite => exact State.done_placed (by split <;> simp [h])
  case itemReadComplete | orderReadComplete => exact leads_next (by split <;> simp (maxDischargeDepth := 40) [h])
  case requestWrite n _ | noticeRead n | portControlWrite n =>
    exact leads_next (by
      cases n <;> simp [State.wholeTransfer_placed, State.beginTransfer_placed, State.endTransfer_placed, h])
  case portStatusRead => exact leads_next (State.wholeTransfer_placed h _)
  case invalidTransfer => exact leads_next (State.endTransfer_placed h _ _)
  case configure =>
    refine leads_next (State.live_placed h fun t ht => State.handle_placed ht fun f u hu => ?_)
    repeat' split
    all_goals simp [hu, State.configure_placed]
  case restart => exact leads_next (State.handle_placed h fun f t ht => by simp [ht, State.resetNow_placed])
  case standbyRequest | takeRequest | holdRequest | resumeRequest | skipRequest | closeRequest =>
    exact leads_next (State.handle_placed h fun f t ht => by simp [ht])
  case propose | yieldRequest | relayRequest =>
    exact leads_next (State.handle_placed h fun f t ht => by split <;> simp [ht])
  case readItem | readOrder | readPeer | readTiming | readArmed =>
    exact leads_next (State.handle_placed h fun f t ht => State.readRequest_placed ht fun a => by simp [ht])
  case unknownRequest =>
    refine leads_next ?_
    repeat' split
    all_goals simp [h]

/-! ## The law of the replica, command by command -/

theorem State.done_lawful (h : s.lawful) : Leads State.lawful s.done := leads_next (State.followLights_lawful.mpr h)

theorem State.configure_lawful (h : s.lawful) (c : Cfg) : (s.configure c).lawful := by
  have hc : ({ s with cfg := some c, run := .run } : State).lawful := h
  simp [State.configure, hc]

/-- Every command keeps the law of the replica in LIVE, in SHADOW and in the batch in hand (R7, R10, R16). -/
theorem exec_lawful (h : s.lawful) (c : Instr) : Leads State.lawful (exec c s) := by
  cases c
  case resetPin | resetEnd => exact leads_next (State.resetNow_lawful ..)
  case referencePulse | refLost | flywheelPulse | silence | acquireTimeout | holdoverExpired | warnPoint | expiryPoint |
      endingRecordDropped | peerAbsent | founded | askWaitExpires | askRetryExpires | gapTimeout | collision |
      transmissionComplete | scan | itemEndCancel =>
    exact State.done_lawful (State.inRun_lawful h fun t ht => by simp -implicitDefEqProofs (maxDischargeDepth := 40) [ht])
  case recoveryEnds | pipStarts | pipEnds | responseWaitExpires | yieldFailed | transmitAttempt | shadowRecordsExpire |
      backoffExpires =>
    exact leads_next (State.inRun_lawful h fun t ht => by simp -implicitDefEqProofs (maxDischargeDepth := 40) [ht])
  case rearmRead | takeoverRead =>
    exact State.done_lawful (State.live_lawful h fun t ht => by simp -implicitDefEqProofs (maxDischargeDepth := 40) [ht])
  case markCapture =>
    exact leads_next (State.live_lawful h fun t ht => by simp [ht])
  case receiveOrderedMessage | receiveMark | receivePresence | receiveAsk | receiveReady | receiveRelay | receiveYield =>
    refine State.done_lawful (State.receive_lawful h fun n b m g hg t ht => ?_)
    split at hg <;> cases hg
    simp [State.unlessOwn, ht]
  case receivePartOpening | receivePart =>
    refine State.done_lawful (State.receive_lawful h fun n b m g hg t ht => ?_)
    repeat' split at hg
    all_goals cases hg
    simp [ht]
  case badReception => exact State.done_lawful (State.reception_lawful h fun t ht => by simp [ht])
  case insert | delete | move | amend | addCue | dropCue | setOut | revive => exact State.done_lawful (by simp [h])
  case standby | take | hold | resume | skip | close =>
    exact State.done_lawful (State.live_lawful h fun t ht => by simp [ht])
  case storeGrant => exact leads_next (by simp [h])
  case freezeCopy | shadowCheck | bankSwap | projectionRead => exact State.done_lawful (by simp (maxDischargeDepth := 40) [h])
  case partRead | partWrite => exact State.done_lawful (by split <;> simp [h])
  case itemReadComplete | orderReadComplete => exact leads_next (by split <;> simp (maxDischargeDepth := 40) [h])
  case requestWrite n _ | noticeRead n | portControlWrite n => exact leads_next (by cases n <;> simp [h])
  case portStatusRead | invalidTransfer => exact leads_next (by simp [h])
  case configure =>
    refine leads_next (State.live_lawful h fun t ht => State.handle_lawful ht fun f u hu => ?_)
    repeat' split
    all_goals simp [hu, State.configure_lawful]
  case restart => exact leads_next (State.handle_lawful h fun f t ht => by simp [ht, State.resetNow_lawful])
  case standbyRequest | takeRequest | holdRequest | resumeRequest | skipRequest | closeRequest =>
    exact leads_next (State.handle_lawful h fun f t ht => by simp [ht])
  case propose | yieldRequest | relayRequest =>
    exact leads_next (State.handle_lawful h fun f t ht => by split <;> simp [ht])
  case readItem | readOrder | readPeer | readTiming | readArmed =>
    exact leads_next (State.handle_lawful h fun f t ht => State.readRequest_lawful ht fun a => by simp [ht])
  case unknownRequest =>
    refine leads_next ?_
    repeat' split
    all_goals simp [h]

/-- Settles O6: every command keeps each of the three laws, and so does the step that takes it from the queue. -/
theorem withinKept : Obligations.WithinKept :=
  ⟨fun _ t h => step_leads (fun _ _ hs => hs) (fun c _ hs => exec_within hs c) h t,
    fun _ t h => step_leads (fun _ _ hs => hs) (fun c _ hs => exec_placed hs c) h t,
    fun _ t h => step_leads (fun _ _ hs => hs) (fun c _ hs => exec_lawful hs c) h t⟩

end Sys2Proof.Machine
end

section
/-! PROOFS. The frame of every command, and with it the writers of the configuration, of LIVE and of the counter (O8). -/

namespace Sys2Proof.Machine

variable {s : State}

/-- The blocks, the store without LIVE, the timebase without the counter, and real time. -/
def blockParts : List Part := [.clock, .store, .apply, .tb, .sched, .out, .timing, .line, .roster, .sync, .pair, .port]

/-- What a command may change, at most. -/
def mayChange : Instr → List Part
  | .resetPin | .resetEnd _ | .restart _ => [.run, .straps, .cfg, .live, .counter, .pending] ++ blockParts
  | .configure _ => [.run, .cfg] ++ blockParts
  | .referencePulse _ | .refLost _ | .flywheelPulse _ | .receiveMark _ _ => .counter :: blockParts
  | .insert | .delete | .move | .amend | .addCue | .dropCue | .setOut | .revive | .standby _ | .take _ | .hold _ | .resume _
  | .skip _ | .close _ | .bankSwap => .live :: blockParts
  | _ => blockParts

theorem blockParts_subset (c : Instr) : ∀ p ∈ blockParts, p ∈ mayChange c := by
  intro p hp
  unfold mayChange
  split <;> simp [hp]

theorem SameBut.everything (s t : State) (pins : Straps) : SameBut (mayChange (.restart pins)) s t := by
  intro p hp; cases p <;> simp [mayChange, blockParts] at hp

theorem State.configure_frame (c : Cfg) (d : Nat) : SameBut (mayChange (.configure d)) s (s.configure c) := by
  have hc : SameBut (mayChange (.configure d)) s ({ s with cfg := some c, run := .run } : State) := by
    intro p hp; cases p <;> first | rfl | exact ⟨rfl, rfl⟩ | simp [mayChange] at hp
  refine SameBut.trans hc ?_
  simp [State.configure, mayChange, blockParts]

theorem State.done_frame {c : Instr} {t : State} (h : SameBut (mayChange c) s t) : Leads (SameBut (mayChange c) s) t.done :=
  leads_next ((State.followLights_same fun p hp => blockParts_subset c p (List.mem_singleton.mp hp ▸ by decide)).mpr h)

/-- Every command changes no part but those it may change. -/
theorem exec_frame (c : Instr) (s : State) : Leads (SameBut (mayChange c) s) (exec c s) := by
  have hs := blockParts_subset c
  simp only [blockParts, List.forall_mem_cons] at hs
  have hc : Part.clock ∈ mayChange c := hs.1
  have hl : Part.line ∈ mayChange c := by simp [hs]
  have hr : ∀ p ∈ [Part.tb, .store, .apply, .sched, .out, .line, .sync, .pair, .port], p ∈ mayChange c := by simp [hs]
  cases c
  case resetPin => exact leads_next (SameBut.everything _ _ strapsLow)
  case resetEnd pins => exact leads_next (SameBut.everything _ _ pins)
  case restart pins => exact leads_next (State.handle_same fun _ _ => SameBut.everything _ _ pins)
  case referencePulse | refLost | flywheelPulse =>
    exact State.done_frame (State.inRun_same hc fun t => by simp [mayChange, blockParts])
  case silence | acquireTimeout | holdoverExpired | warnPoint | expiryPoint | endingRecordDropped | peerAbsent | founded |
      askWaitExpires | askRetryExpires | gapTimeout | collision | transmissionComplete | scan | itemEndCancel =>
    exact State.done_frame (State.inRun_same hc fun t => by simp [hs])
  case recoveryEnds | pipStarts | pipEnds | responseWaitExpires | yieldFailed | transmitAttempt | shadowRecordsExpire |
      backoffExpires =>
    exact leads_next (State.inRun_same hc fun t => by simp [hs])
  case rearmRead | takeoverRead =>
    exact State.done_frame (State.live_same hc fun t => by simp [hs])
  case markCapture =>
    exact leads_next (State.live_same hc fun t => by simp [hs])
  case receiveMark =>
    refine State.done_frame (State.receive_same hc hr fun n b m g hg t => ?_)
    split at hg <;> cases hg
    simp [State.unlessOwn, mayChange, blockParts]
  case receiveOrderedMessage | receivePresence | receiveAsk | receiveReady | receiveRelay | receiveYield =>
    refine State.done_frame (State.receive_same hc hr fun n b m g hg t => ?_)
    split at hg <;> cases hg
    simp [hs, State.unlessOwn]
  case receivePartOpening | receivePart =>
    refine State.done_frame (State.receive_same hc hr fun n b m g hg t => ?_)
    repeat' split at hg
    all_goals cases hg
    simp [hs]
  case badReception =>
    exact State.done_frame (State.reception_same hc hl fun t => by simp [hs])
  case insert | delete | move | amend | addCue | dropCue | setOut | revive | bankSwap =>
    exact State.done_frame (by simp [mayChange, blockParts])
  case freezeCopy | shadowCheck | projectionRead => exact State.done_frame (by simp [hs])
  case standby | take | hold | resume | skip | close =>
    exact State.done_frame (State.live_same hc fun t => by simp [mayChange, blockParts])
  case partRead | partWrite => exact State.done_frame (by split <;> simp [hs])
  case itemReadComplete => exact leads_next (by split <;> simp [hs])
  case requestWrite n _ | noticeRead n | portControlWrite n =>
    exact leads_next (by cases n <;> simp [hs])
  case storeGrant | orderReadComplete | portStatusRead | invalidTransfer => exact leads_next (by simp [hs])
  case configure d =>
    refine leads_next (State.live_same hc fun t => State.handle_same fun f u => ?_)
    split
    · simp [hs]
    · split
      · simp [hs]
      · exact State.configure_frame _ _
  case standbyRequest | takeRequest | holdRequest | resumeRequest | skipRequest | closeRequest =>
    exact leads_next (State.handle_same fun f t => by simp [hs])
  case propose | yieldRequest | relayRequest =>
    exact leads_next (State.handle_same fun f t => by split <;> simp [hs])
  case readItem | readOrder | readPeer | readTiming | readArmed =>
    exact leads_next (State.handle_same fun f t => by
      unfold State.readRequest
      repeat' split
      all_goals simp [hs])
  case unknownRequest =>
    refine leads_next ?_
    repeat' split
    all_goals simp [hs]

/-! ## The writers -/

theorem not_mem_mayChange_of_steady {c : Instr} (hpin : c ≠ .resetPin) (hend : ∀ p, c ≠ .resetEnd p)
    (hre : ∀ p, c ≠ .restart p) (hcf : ∀ d, c ≠ .configure d) : ∀ p ∈ [Part.run, .straps, .cfg, .pending], p ∉ mayChange c := by
  unfold mayChange
  split <;> simp_all [blockParts]

theorem writesLive_of_mem {c : Instr} (h : .live ∈ mayChange c) :
    c ∈ [Instr.insert, .delete, .move, .amend, .addCue, .dropCue, .setOut, .revive, .bankSwap, .resetPin] ∨
      (∃ d, c ∈ [Instr.standby d, .take d, .hold d, .resume d, .skip d, .close d]) ∨
      ∃ p, c ∈ [Instr.resetEnd p, .restart p] := by
  unfold mayChange at h
  split at h <;> simp_all [blockParts]

theorem writesCounter_of_mem {c : Instr} (h : .counter ∈ mayChange c) :
    (∃ p, c ∈ [Instr.referencePulse p, .refLost p, .flywheelPulse p]) ∨ (∃ d r, c = .receiveMark d r) ∨ c = .resetPin ∨
      ∃ p, c ∈ [Instr.resetEnd p, .restart p] := by
  unfold mayChange at h
  split at h <;> simp_all [blockParts]

/-- Settles O8: a part that a command changes is among those it may change. -/
theorem writersOfConfigLiveAndCounter : Obligations.WritersOfConfigLiveAndCounter := by
  refine ⟨fun c s t h hpin hend hre hcf => ?_, fun c s t h => ⟨fun hn => ?_, fun hn => ?_⟩⟩
  · have k := not_mem_mayChange_of_steady hpin hend hre hcf
    have f := exec_frame c s t h
    exact ⟨f .run (k _ (by decide)), f .straps (k _ (by decide)), f .cfg (k _ (by decide)), f .pending (k _ (by decide))⟩
  · exact writesLive_of_mem (Classical.byContradiction fun hm => hn (exec_frame c s t h _ hm))
  · exact writesCounter_of_mem (Classical.byContradiction fun hm => hn (exec_frame c s t h _ hm))

end Sys2Proof.Machine
end

section
/-! PROOFS. The store arbiter's grant (O35). -/

namespace Sys2Proof.Machine

/-! ## One client's waiting place -/

theorem Store.waiting_setWaiting_same (st : Store) (c : Client) (w : Option StoreOp) : (st.setWaiting c w).waiting c = w := by
  cases c <;> rfl

theorem Store.waiting_setWaiting_other (st : Store) {c d : Client} (w : Option StoreOp) (h : d ≠ c) :
    (st.setWaiting c w).waiting d = st.waiting d := by
  cases c <;> cases d <;> first | rfl | exact absurd rfl h

theorem Store.waiting_start (st : Store) (op : StoreOp) (d : Client) : (st.start op).waiting d = st.waiting d := by
  cases d <;> rfl

/-! ## The grant -/

/-- The grant, said of the client that receives it (R18). -/
theorem Store.grantNext_first {st : Store} {c : Client} {op : StoreOp} (hw : st.waiting c = some op)
    (hf : ∀ d ∈ [Client.apply, .sync, .scheduler, .timing, .port].takeWhile (fun d => decide (d ≠ c)), st.waiting d = none) :
    st.grantNext = (st.setWaiting c none).start op := by
  cases c <;> simp_all [Store.grantNext, Store.waiting, Store.setWaiting]

/-- Settles O35: the grant is the first waiting client's, and a store in use grants nothing. -/
theorem storeGranted : Obligations.StoreGranted := by
  refine fun s => ⟨fun h => ?_, fun c op h hw hf => ⟨s.modStore Store.grantNext, ?_, ?_, ?_⟩⟩
  · show Host.Outcome.next _ = _
    simp [h]
  · show Host.Outcome.next _ = _
    simp [h]
  · exact State.modStore_frame_live _ _ (Store.grantNext_live _) (Store.grantNext_summary _)
  · rw [State.modStore_store, Store.grantNext_first hw hf]
    refine ⟨rfl, ?_, fun d hd => ?_, ?_⟩
    · rw [Store.waiting_start, Store.waiting_setWaiting_same]
    · rw [Store.waiting_start, Store.waiting_setWaiting_other _ _ hd]
    · exact Store.setWaiting_shadow _ _

end Sys2Proof.Machine
end

section
/-! PROOFS. What looking at the head of the apply queue leaves alone, and the bank swap (O49). -/

namespace Sys2Proof.Machine

variable {s t u : State}

/-! ## Looking at the head -/

/-- What the requests for the store and the markers passed over leave alone: SHADOW, the step state, the catch-up, and of the
apply engine all but the queue. -/
structure State.LooksOn (s t : State) : Prop where
  shadow : t.store.shadow = s.store.shadow
  step : t.sync.step = s.sync.step
  phase : t.sync.phase = s.sync.phase
  holding : t.apply.holding = s.apply.holding
  serial : t.apply.serial = s.apply.serial
  batch : t.apply.batch = s.apply.batch

theorem State.LooksOn.refl (s : State) : s.LooksOn s := ⟨rfl, rfl, rfl, rfl, rfl, rfl⟩

theorem State.LooksOn.trans (h : s.LooksOn t) (k : t.LooksOn u) : s.LooksOn u :=
  ⟨k.shadow.trans h.shadow, k.step.trans h.step, k.phase.trans h.phase, k.holding.trans h.holding, k.serial.trans h.serial,
    k.batch.trans h.batch⟩

theorem State.request_looksOn (op : StoreOp) : s.LooksOn (s.request op) :=
  ⟨Store.request_shadow op, rfl, rfl, rfl, rfl, rfl⟩

theorem State.popQueue_looksOn : s.LooksOn s.popQueue := ⟨rfl, rfl, rfl, rfl, rfl, rfl⟩

theorem State.streamEnd_looksOn : s.LooksOn s.streamEnd := by
  constructor <;> simp only [State.streamEnd, State.startRound] <;> repeat' split
  all_goals rfl

theorem State.kickFor_looksOn (n : Nat) (s : State) : s.LooksOn (s.kickFor n) := by
  induction n generalizing s with
  | zero => exact .refl s
  | succ n ih =>
    unfold State.kickFor
    repeat' split
    · exact .refl s
    · exact .refl s
    · exact State.request_looksOn _
    · exact .refl s
    · exact State.request_looksOn _
    · exact (State.popQueue_looksOn.trans State.streamEnd_looksOn).trans (ih _)
    · exact State.popQueue_looksOn.trans (ih _)

theorem State.wantReads_shadow : s.wantReads.store.shadow = s.store.shadow := by
  simp only [State.wantReads]
  repeat' split
  all_goals simp [State.request]

theorem State.wantProjection_shadow : s.wantProjection.store.shadow = s.store.shadow := by
  simp only [State.wantProjection]
  split <;> simp [State.request]

theorem State.takeoverTest_shadow : s.takeoverTest.store.shadow = s.store.shadow := by
  simp only [State.takeoverTest]
  repeat' split
  · rfl
  · exact State.wantReads_shadow
  · simp only [State.block]; split <;> rfl
  · rfl

theorem Emit.takeEntry_lastDone (env : Env) (m : Emit) (k : EntryKey) :
    (Emit.takeEntry env m k).sched.lastDone = m.sched.lastDone := by
  simp only [Emit.takeEntry]
  repeat' split
  all_goals rfl

theorem Emit.takeRecord_lastDone (env : Env) (d : Option Frame) (m : Emit) (r : ShadowRec) :
    (Emit.takeRecord env d m r).sched.lastDone = m.sched.lastDone := by
  simp only [Emit.takeRecord]
  repeat' split
  all_goals rfl

theorem foldl_keeps {α β γ : Type} {f : β → α → β} {g : β → γ} (h : ∀ b a, g (f b a) = g b) (l : List α) (b : β) :
    g (l.foldl f b) = g b := by
  induction l generalizing b with
  | nil => rfl
  | cons a l ih => exact (ih _).trans (h b a)

/-- A takeover leaves the item most recently DONE (R190). -/
theorem Emit.takeOver_lastDone (env : Env) (d : Option Frame) (m : Emit) :
    (m.takeOver env d).sched.lastDone = m.sched.lastDone :=
  (foldl_keeps (g := fun m : Emit => m.sched.lastDone) (Emit.takeRecord_lastDone env d) _ _).trans
    (foldl_keeps (g := fun m : Emit => m.sched.lastDone) (Emit.takeEntry_lastDone env) _ _)

theorem State.becomeActive_lastDone (c : RoleCause) : (s.becomeActive c).sched.lastDone = s.sched.lastDone := by
  have h : (s.becomeActive c).sched = _ := (State.wantReads_same (by simp)).mpr (SameBut.refl [.store] _) .sched (by decide)
  rw [h]
  exact Emit.takeOver_lastDone _ _ _

theorem State.takeoverTest_lastDone : s.takeoverTest.sched.lastDone = s.sched.lastDone := by
  simp only [State.takeoverTest]
  repeat' split
  · rfl
  · exact State.becomeActive_lastDone _
  · simp only [State.block]; split <;> rfl
  · rfl

/-! ## The adoption -/

/-- Coming into step (R176): what it sets, and what it leaves. -/
structure State.ComesInStep (s t : State) : Prop where
  shadow : t.store.shadow = s.store.shadow
  step : t.sync.step = .inStep
  phase : t.sync.phase = .awaiting
  holding : t.apply.holding = s.apply.holding
  serial : t.apply.serial = s.apply.serial
  lastDone : t.sched.lastDone = s.sched.lastDone

theorem State.enterInStep_comes (s : State) (c : StepCause) : s.ComesInStep (s.enterInStep c) := by
  have k := State.kickFor_looksOn (applyPlaces + 1) ((s.setStep .inStep c).modSync Sync.clearCatchUp)
  have hk : SameBut [.apply, .line, .sync, .store, .port] s ((s.setStep .inStep c).modSync Sync.clearCatchUp).kick := by simp
  have hf (v : State) : SameBut [.store, .sched, .out, .pair, .port] v v.fitnessChanged := by simp
  have f := hf ((s.setStep .inStep c).modSync Sync.clearCatchUp).kick
  have fs := f .sync (by decide)
  have fa := f .apply (by decide)
  exact {
    shadow := State.takeoverTest_shadow.trans k.shadow
    step := (congrArg Sync.step fs).trans k.step
    phase := (congrArg Sync.phase fs).trans k.phase
    holding := (congrArg ApplyEngine.holding fa).trans k.holding
    serial := (congrArg ApplyEngine.serial fa).trans k.serial
    lastDone := State.takeoverTest_lastDone.trans (congrArg Scheduler.lastDone (hk .sched (by decide))) }

/-- The banks swapped, the next client granted the store, and the apply engine told (R20, R40). -/
def State.swapped (s : State) : State :=
  ((s.modStore fun st => { st.emptyShadow with live := st.shadow, summary := st.shadow.summary }).release).modApply fun a =>
    { a with holding := false, serial := serialAfter s.straps.number s.store.shadow.items }

theorem State.swapped_shadow : s.swapped.store.shadow = .empty := Store.release_shadow
theorem State.swapped_live : s.swapped.store.live = s.store.shadow := Store.release_live _
theorem State.swapped_summary : s.swapped.store.summary = s.store.shadow.summary := Store.release_summary _

theorem State.swapDone_kept (h : s.store.dropped = false) : ∃ c, s.swapDone =
    (((s.swapped.enterInStep c).modSched Scheduler.adopted).wantReads).timingAdopted := by
  refine ⟨.adopted s.sync.source (s.apply.queue.countP QueueEntry.isOrdered), ?_⟩
  simp [State.swapDone, h, State.swapped, State.release, State.modStore, State.modApply]

theorem State.wantProjection_timing :
    s.wantProjection.timing.onAir = s.timing.onAir ∧ s.wantProjection.timing.ending = s.timing.ending := by
  simp only [State.wantProjection]
  split <;> exact ⟨rfl, rfl⟩

theorem Timing.reclaim_records (r : Timing) (lead : Half) (now : Frame) :
    (r.reclaim lead now).onAir = r.onAir ∧ (r.reclaim lead now).ending = r.ending := by
  simp only [Timing.reclaim]
  repeat' split
  all_goals exact ⟨rfl, rfl⟩

/-- At an adoption both timer records go (R124). -/
theorem State.timingAdopted_records : s.timingAdopted.timing.onAir = none ∧ s.timingAdopted.timing.ending = none := by
  obtain ⟨ha, he⟩ :=
    Timing.reclaim_records { s.timing with onAir := none, ending := none, rebuild := true } s.config.wrapLead s.now
  obtain ⟨wa, we⟩ := State.wantProjection_timing
    (s := (s.modTiming fun t => { t with onAir := none, ending := none, rebuild := true }).reclaim)
  exact ⟨wa.trans ha, we.trans he⟩

theorem State.timingAdopted_shadow : s.timingAdopted.store.shadow = s.store.shadow := State.wantProjection_shadow

theorem execBankSwap_holding (h : s.store.holder = some .bankSwap) : exec .bankSwap s = .next s.swapDone.followLights := by
  show State.done _ = _
  rw [if_pos h]; rfl

/-- Settles O49: the banks change places, the station comes into step, and the scheduler and the timing unit are told. -/
theorem bankSwapAdopts : Obligations.BankSwapAdopts := by
  intro s _ hh hd
  obtain ⟨c, hc⟩ := State.swapDone_kept hd
  have hv := State.enterInStep_comes s.swapped c
  have hl : SameBut [.store, .apply, .sched, .out, .line, .sync, .pair, .port] s.swapped (s.swapped.enterInStep c) := by simp
  generalize s.swapped.enterInStep c = v at hc hv hl
  have ht : SameBut [.store, .timing, .out] (v.modSched Scheduler.adopted) s.swapDone.followLights := by simp [hc]
  have hfl : SameBut [.out] s.swapDone s.swapDone.followLights := by simp
  have hw : SameBut [.timing, .live, .store, .apply, .sched, .out, .line, .sync, .pair, .port] s s.swapDone.followLights := by simp
  have lv := ht .live (by decide)
  have ls := hl .live (by decide)
  have sy := ht .sync (by decide)
  have ap := ht .apply (by decide)
  have sc := ht .sched (by decide)
  have st := hfl .store (by decide)
  have ti := hfl .timing (by decide)
  have tr := State.timingAdopted_records (s := (v.modSched Scheduler.adopted).wantReads)
  rw [← hc] at tr
  refine ⟨_, execBankSwap_holding hh, lv.1.trans (ls.1.trans State.swapped_live), lv.2.trans (ls.2.trans State.swapped_summary),
    ?_, (congrArg Sync.step sy).trans hv.step, (congrArg Sync.phase sy).trans hv.phase,
    (congrArg ApplyEngine.holding ap).trans hv.holding, (congrArg ApplyEngine.serial ap).trans hv.serial,
    congrArg Scheduler.rearmWanted sc, (congrArg Scheduler.lastDone sc).trans hv.lastDone, congrArg Scheduler.shadowList sc,
    congrArg Scheduler.overflow sc, (congrArg Timing.onAir ti).trans tr.1, (congrArg Timing.ending ti).trans tr.2,
    hw .tb (by decide), hw .roster (by decide), hw .cfg (by decide)⟩
  calc s.swapDone.followLights.store.shadow
      = s.swapDone.store.shadow := congrArg Store.shadow st
    _ = v.store.shadow := by rw [hc, State.timingAdopted_shadow, State.wantReads_shadow]; rfl
    _ = .empty := hv.shadow.trans State.swapped_shadow

end Sys2Proof.Machine
end

section
/-! PROOFS. An EDIT at its next operation, and INSERT (O36). -/

namespace Sys2Proof.Machine

variable {s t : State}

/-! ## The batch -/

/-- The batch after an operation that passed (R31). -/
def Batch.after (b : Batch) (op : RawOp) (r : Replica) (rest : List Byte) : Batch :=
  { b.note op with work := r, index := b.index + 1, rest := rest }

/-- The apply of an EDIT goes on with the batch in hand, or with a new one (R30, R31). -/
theorem State.applyEdit_editing {m : EditMsg} {b : Batch} {op : RawOp} {rest : List Byte} (h : s.editing m b op rest)
    (row : RawOp → Bool) : s.applyEdit row = s.editNext row m b := by
  obtain ⟨hs, ⟨n, q, hq⟩, hb, -⟩ := h
  have ha : s.applying = true := by simp [State.applying, hs]
  rcases hb with hb | ⟨hb, hv, h1, h6, rfl⟩
  · simp only [State.applyEdit, ha, hq, hb]
  · have h0 : m.count ≠ 0 := by rintro h; simp [h] at h1
    have hc : ¬(m.count = 0 ∨ 6 < m.count.toNat) := not_or.mpr ⟨h0, by omega⟩
    simp only [State.applyEdit, ha, hq, hb, hv, Nat.lt_irrefl, if_false, ne_eq, not_true_eq_false, hc]

theorem State.editNext_fails {m : EditMsg} {b : Batch} {op : RawOp} {rest : List Byte} (h : s.editing m b op rest)
    {row : RawOp → Bool} (hr : row op = true) {e : Result} (ho : b.work.operate op = .error e) :
    s.editNext row m b = s.refuseEdit m e (b.index + 1) := by
  obtain ⟨-, -, -, bytes, hc, hop⟩ := h
  simp [State.editNext, hc, hop, hr, ho]

theorem State.editNext_passes {m : EditMsg} {b : Batch} {op : RawOp} {rest : List Byte} (h : s.editing m b op rest)
    {row : RawOp → Bool} (hr : row op = true) {r : Replica} (ho : b.work.operate op = .ok r) :
    s.editNext row m b = if b.index + 1 = m.count.toNat then s.acceptEdit m (b.after op r rest)
      else s.modApply fun a => { a with batch := some (b.after op r rest) } := by
  obtain ⟨-, -, -, bytes, hc, hop⟩ := h
  simp [State.editNext, hc, hop, hr, ho, Batch.after]

theorem State.closeApply_batch : s.closeApply.apply.batch = none :=
  (State.kickFor_looksOn _ _).batch

theorem State.refuseEdit_refused (s : State) (m : EditMsg) (b : Batch) (e : Result) :
    EditRefused s (s.refuseEdit m e (b.index + 1)).followLights m b e := by
  have hl : SameBut [.port, .apply, .line, .sync, .store, .out] s (s.refuseEdit m e (b.index + 1)).followLights := by simp
  have ho : SameBut [.out] (s.refuseEdit m e (b.index + 1)) (s.refuseEdit m e (b.index + 1)).followLights := by simp
  have hp : SameBut [.apply, .line, .sync, .store, .out] (s.editDone m e (b.index + 1) [])
      (s.refuseEdit m e (b.index + 1)).followLights := by simp [State.refuseEdit]
  exact ⟨hl .live (by decide), (congrArg ApplyEngine.batch (ho .apply (by decide))).trans State.closeApply_batch,
    hp .port (by decide)⟩

theorem State.emit_posted {f : Env → Emit → Emit} {p : Port} (hp : Posted p s)
    (hf : ∀ env m, Emit.Sat (fun m => s.port.grows m.port) m → (f env m).Sat fun m => s.port.grows m.port) :
    Posted p (s.emit f) := by
  have h : s.port.grows (s.emit f).port := hf s.env ⟨s.sched, s.out, s.port⟩ (Port.grows_refl _)
  exact ⟨hp.1.trans h.1, hp.2.trans h.2.1⟩

theorem Posted.same {ps : List Part} {p : Port} (h : Posted p s) (k : SameBut ps s t) (hn : Part.port ∉ ps) : Posted p t := by
  have hp : t.port = s.port := k .port hn
  rw [Posted, hp]
  exact h

/-- A batch put in LIVE and told of (R31, R41), before its outcome is reported. -/
def State.accepted (s : State) (m : EditMsg) (b : Batch) : State :=
  (s.commit (Replica.sealed { b.work with version := b.work.version + 1 })).editDone m .applied 0 b.inserted

theorem State.acceptEdit_eq (s : State) (m : EditMsg) (b : Batch) : s.acceptEdit m b =
    (((s.accepted m b).emit fun env e => e.onEdit env (b.deleted ++ b.revived) b.setOut).wantProjection).closeApply := rfl

theorem State.accepted_live (s : State) (m : EditMsg) (b : Batch) :
    (s.accepted m b).store.live = Replica.sealed { b.work with version := b.work.version + 1 } := rfl

theorem State.accepted_port (s : State) (m : EditMsg) (b : Batch) : (s.accepted m b).port =
    s.port.post (.editDone m.proposer m.tag .applied 0 (s.accepted m b).store.live.version b.inserted) := rfl

/-- The last operation of a batch passed (R31, R41). -/
theorem State.acceptEdit_passed {s t : State} {m : EditMsg} {b : Batch} (ht : t = (s.acceptEdit m b).followLights) :
    t.store.live = Replica.sealed { b.work with version := b.work.version + 1 } ∧ t.store.summary = t.store.live.summary ∧
      t.apply.batch = none ∧ Posted (s.port.post (.editDone m.proposer m.tag .applied 0 t.store.live.version b.inserted)) t := by
  have hl : SameBut [.timing, .sched, .out, .port, .apply, .line, .sync, .store] (s.accepted m b) t := by
    simp [ht, State.acceptEdit_eq]
  have hw : SameBut [.timing, .out, .apply, .line, .sync, .store]
      ((s.accepted m b).emit fun env e => e.onEdit env (b.deleted ++ b.revived) b.setOut) t := by
    simp [ht, State.acceptEdit_eq]
  have ho : SameBut [.out] (s.acceptEdit m b) t := by simp [ht]
  obtain ⟨live, summary⟩ := hl .live (by decide)
  have posted : Posted (s.accepted m b).port
      ((s.accepted m b).emit fun env e => e.onEdit env (b.deleted ++ b.revived) b.setOut) :=
    State.emit_posted ⟨List.prefix_refl _, List.prefix_refl _⟩ fun env m hm => Emit.onEdit_sat (Emit.grows_closed _) hm env _ _
  rw [live, ← State.accepted_port]
  exact ⟨State.accepted_live s m b, summary, (congrArg ApplyEngine.batch (ho .apply (by decide))).trans State.closeApply_batch,
    posted.same hw (by decide)⟩

/-- What becomes of an EDIT at its next operation: refused whole, or carried on, as the operation answers (R31). -/
theorem State.applyEdit_outcome {m : EditMsg} {b : Batch} {op : RawOp} {rest : List Byte} (h : s.editing m b op rest)
    {row : RawOp → Bool} (hr : row op = true) : ∃ t, (s.applyEdit row).done = .next t ∧
      (∀ e, b.work.operate op = .error e → EditRefused s t m b e) ∧
      ∀ r, b.work.operate op = .ok r → EditPassed s t m b op rest r := by
  refine ⟨_, rfl, fun e ho => ?_, fun r ho => ?_⟩
  · rw [State.applyEdit_editing h, State.editNext_fails h hr ho]
    exact State.refuseEdit_refused s m b e
  · rw [State.applyEdit_editing h, State.editNext_passes h hr ho, EditPassed]
    split
    · exact State.acceptEdit_passed rfl
    · have hf : SameBut [.apply, .out] s
          (s.modApply fun a => { a with batch := some (b.after op r rest) }).followLights := by simp
      have ho : SameBut [.out] (s.modApply fun a => { a with batch := some (b.after op r rest) })
          (s.modApply fun a => { a with batch := some (b.after op r rest) }).followLights := by simp
      exact ⟨hf .live (by decide), hf, b.after op r rest, congrArg ApplyEngine.batch (ho .apply (by decide)), rfl, rfl, rfl⟩

/-! ## INSERT -/

theorem insertItem_none {id : ItemId} {slug : List Byte} {planned : BitVec 24} {flags : Byte} {short : BitVec 24}
    {cues : List Cue} : insertItem id slug planned flags short cues = none ↔
      slugOk slug = false ∨ 16 ≤ flags.toNat ∨ flags.getLsbD 3 = false ∧ short ≠ 0 := by
  unfold insertItem
  split
  · next h =>
    obtain ⟨hs, hf, h3⟩ := h
    refine ⟨fun hn => absurd hn (Option.some_ne_none _), ?_⟩
    rintro (h | h | ⟨h, hz⟩)
    · exact absurd (hs.symm.trans h) (by decide)
    · exact absurd hf (Nat.not_lt.mpr h)
    · exact absurd (h3.resolve_left (by rw [h]; decide)) hz
  · next h =>
    refine ⟨fun _ => ?_, fun _ => rfl⟩
    cases hs : slugOk slug with
    | false => exact .inl rfl
    | true =>
      by_cases hf : flags.toNat < 16
      · refine .inr (.inr ?_)
        cases h3 : flags.getLsbD 3 with
        | true => exact absurd ⟨hs, hf, .inl h3⟩ h
        | false => exact ⟨rfl, fun hz => h ⟨hs, hf, .inr hz⟩⟩
      · exact .inr (.inl (Nat.not_lt.mp hf))

theorem insertItem_some {id : ItemId} {slug : List Byte} {planned : BitVec 24} {flags : Byte} {short : BitVec 24}
    {cues : List Cue} {i : Item} (h : insertItem id slug planned flags short cues = some i) :
    i = ⟨id, slug, planned, if flags.getLsbD 3 then some short else none, flags.getLsbD 0, flags.getLsbD 1,
      flags.getLsbD 2, .pending, sortCues cues⟩ := by
  unfold insertItem at h
  split at h
  · exact (Option.some.inj h).symm
  · cases h

theorem Replica.lacks_eq_true {r : Replica} {anchor : Option ItemId} :
    r.lacks anchor = true ↔ ∃ a, anchor = some a ∧ r.has a = false := by
  cases anchor <;> simp [Replica.lacks]

section
variable {r : Replica} {anchor : Option ItemId} {id : ItemId} {slug : List Byte} {planned : BitVec 24} {flags : Byte}
  {short : BitVec 24} {raw : List (List Byte)} {cues : List Cue} {i : Item}

theorem Replica.insert_crowded (h : 16 < raw.length) : r.insert anchor id slug planned flags short raw = .error .itemCuesFull := by
  simp [Replica.insert, maxItemCues, h]

theorem Replica.insert_unread (hn : raw.length ≤ 16) (h : readCues raw = none) :
    r.insert anchor id slug planned flags short raw = .error .badValue := by
  simp [Replica.insert, maxItemCues, Nat.not_lt.mpr hn, h]

theorem Replica.insert_unfit (hn : raw.length ≤ 16) (hc : readCues raw = some cues)
    (h : insertItem id slug planned flags short cues = none) :
    r.insert anchor id slug planned flags short raw = .error .badValue := by
  simp [Replica.insert, maxItemCues, Nat.not_lt.mpr hn, hc, h]

/-- An INSERT whose item can be read: the checks of the replica, in their order (R32). -/
theorem Replica.insert_read (hn : raw.length ≤ 16) (hc : readCues raw = some cues)
    (hi : insertItem id slug planned flags short cues = some i) : r.insert anchor id slug planned flags short raw =
      if sharesSlot cues then .error .slotTaken else if r.has id then .error .duplicateId
      else if r.lacks anchor then .error .noAnchor else if 96 ≤ r.items.length then .error .itemsFull
      else if 512 < r.cueCount + cues.length then .error .cuesFull
      else .ok { r with items := placeAfter i anchor r.items } := by
  simp only [Replica.insert, maxItemCues, Nat.not_lt.mpr hn, if_false, hc, hi]
  rfl

end

/-- Settles O36: the operation answers the first check that fails, or the new list, and the batch goes the way of its answer. -/
theorem insertApplies : Obligations.InsertApplies := by
  intro s m b rest anchor id slug planned flags short raw _ h
  obtain ⟨t, ht, refused, passed⟩ := State.applyEdit_outcome h
    (row := fun | .insert _ _ _ _ _ _ _ => true | _ => false) rfl
  refine ⟨t, ht, fun hn => refused _ (Replica.insert_crowded hn), fun hn hc => refused _ (Replica.insert_unread hn hc),
    fun cues hn hc => ⟨insertItem_none, fun hi => refused _ (Replica.insert_unfit hn hc hi), fun i hi => ?_⟩⟩
  have op : b.work.operate (.insert anchor id slug planned flags short raw) = _ := Replica.insert_read hn hc hi
  obtain rfl := insertItem_some hi
  refine ⟨rfl, rfl, rfl, rfl, rfl, rfl, rfl, rfl, rfl, fun hs => refused _ ?_, fun hs hd => refused _ ?_,
    fun hs hd ha => refused _ ?_, fun hs hd ha => ?_⟩
  · rw [op, if_pos hs]
  · simp [op, hs, hd]
  · simp [op, hs, hd, Replica.lacks_eq_true.mpr ha]
  · have hl : b.work.lacks anchor = false := by
      rw [← Bool.not_eq_true, Replica.lacks_eq_true]
      rintro ⟨a, e, hf⟩
      simp [ha a e] at hf
    refine ⟨fun h1 => refused _ ?_, fun h1 h2 => refused _ ?_, fun h1 h2 => passed _ ?_⟩
    · simp [op, hs, hd, hl, h1]
    · simp [op, hs, hd, hl, Nat.not_le.mpr h1, h2]
    · simp [op, hs, hd, hl, Nat.not_le.mpr h1, Nat.not_lt.mpr h2]

end Sys2Proof.Machine
end

section
/-! PROOFS. The freeze copy and the part read (O47): the statement fails where an operation waits at a client not its own, and holds
where every operation waits at its own. -/

namespace Sys2Proof.Machine

variable {s : State}

/-! ## The refuting state -/

theorem execFreezeCopy_holding (h : s.store.holder = some .freezeCopy) : exec .freezeCopy s = .next s.freezeDone.followLights := by
  show State.done _ = _
  rw [if_pos h]; rfl

theorem execPartRead_holding {k : Nat} (h : s.store.holder = some (.partRead k)) :
    exec .partRead s = .next (s.partReadDone k).followLights := by
  show State.done _ = _
  simp only [h]; rfl

/-- A stream FREEZING whose copy completes, while the sync engine's waiting place holds a freeze copy, an operation of the apply
engine: plain data that the statement allows, and that no request makes (`Store.request` has an operation wait at its own client). -/
def misplacedWait : State :=
  { State.reset with
    run := .run
    store := { Store.reset with holder := some .freezeCopy, waitSync := some .freezeCopy }
    apply := { ApplyEngine.reset with queue := [.marker false] }
    sync := { Sync.reset with responder := .freezing } }

/-- The misplaced operation is granted at the release, and SHADOW is in use for it. -/
theorem misplacedWait_copies : misplacedWait.freezeDone.followLights.store.use = .copying := by decide +kernel

/-- Refutes O47: the statement leaves open what waits at the other clients, and a freeze copy that waits at the sync engine's place
takes SHADOW to COPYING in the operation that was to leave it FROZEN. -/
theorem not_freezeCopyAndPartRead : ¬ Obligations.FreezeCopyAndPartRead := by
  intro h
  obtain ⟨t, ht, -, -, -, -, -, hf, -⟩ := (h misplacedWait rfl).1 false [] [] rfl rfl rfl (by simp) (by simp) (by simp)
  rw [execFreezeCopy_holding rfl] at ht
  have hu := (hf rfl rfl).2.1
  cases ht
  rw [misplacedWait_copies] at hu
  cases hu

/-! ## The statement with the premise it lacks: its two halves -/

/-- Every waiting operation waits at its own client (R17, R18). -/
def Store.ownWaits (st : Store) : Prop := ∀ c op, st.waiting c = some op → op.client = c

theorem Store.reset_ownWaits : Store.reset.ownWaits := by
  intro c op h; cases c <;> cases h

theorem Store.request_ownWaits {st : Store} (h : st.ownWaits) (op : StoreOp) : (st.request op).ownWaits := by
  intro c o hw
  unfold Store.request at hw
  split at hw
  · exact h c o (Store.waiting_start st op c ▸ hw)
  · by_cases hc : c = op.client
    · subst hc
      rw [Store.waiting_setWaiting_same] at hw
      cases hw; rfl
    · exact h c o (Store.waiting_setWaiting_other st (some op) hc ▸ hw)

/-- What a grant is: of nothing, or of the operation that a client waits for. -/
theorem Store.grantNext_cases (st : Store) :
    st.grantNext = st ∨ ∃ c op, st.waiting c = some op ∧ st.grantNext = (st.setWaiting c none).start op := by
  unfold Store.grantNext
  split
  · exact .inr ⟨.apply, _, by assumption, rfl⟩
  · exact .inr ⟨.sync, _, by assumption, rfl⟩
  · exact .inr ⟨.scheduler, _, by assumption, rfl⟩
  · exact .inr ⟨.timing, _, by assumption, rfl⟩
  · exact .inr ⟨.port, _, by assumption, rfl⟩
  · exact .inl rfl

/-- Where the apply engine waits for nothing, the next grant is none of its operations. -/
theorem Store.release_others {st : Store} (h : st.ownWaits) (ha : st.waitApply = none) :
    st.release.busy .apply = false ∧ st.release.use = st.use := by
  rcases Store.grantNext_cases { st with holder := none, dropped := false } with e | ⟨c, op, hw, e⟩ <;> rw [Store.release, e]
  · simp [Store.busy, Store.waiting, ha]
  · have hc : op.client = c := h c op hw
    have hn : c ≠ .apply := by rintro rfl; simp [Store.waiting, ha] at hw
    have hu : ∀ u : Store, (u.setWaiting c none).use = u.use := by intro u; cases c <;> rfl
    refine ⟨?_, ?_⟩
    · rw [Store.busy, Store.waiting_start, Store.waiting_setWaiting_other _ _ hn.symm]
      simp [Store.waiting, ha, Store.start, hc, hn]
    · have ho : op ≠ .freezeCopy := by rintro rfl; exact hn hc.symm
      simp only [Store.start, if_neg ho, hu]

/-- Void markers at the head leave without a copy, until an ordered message or nothing stands there (R19, R25). -/
theorem State.kickFor_void {q : List QueueEntry} (hq : ∀ e ∈ q, e.isOrdered = true) (gone : List QueueEntry) (n : Nat)
    (s : State) (hg : ∀ e ∈ gone, e = .marker true) (hn : gone.length < n) (hb : s.store.busy .apply = false)
    (ha : s.apply.queue = gone ++ q) :
    (s.kickFor n).apply.queue = q ∧ (s.kickFor n).sync = s.sync ∧ (s.kickFor n).store.use = s.store.use := by
  induction gone generalizing n s with
  | nil =>
    obtain ⟨n, rfl⟩ := Nat.exists_eq_succ_of_ne_zero (Nat.ne_of_gt hn)
    rw [List.nil_append] at ha
    unfold State.kickFor
    simp only [hb, Bool.false_eq_true, if_false, ha]
    cases q with
    | nil => exact ⟨ha, rfl, rfl⟩
    | cons e q =>
      cases e with
      | ordered m =>
        have hr : (s.store.request .apply).use = s.store.use := by
          unfold Store.request; split <;> rfl
        dsimp only
        split
        · exact ⟨ha, rfl, hr⟩
        · exact ⟨ha, rfl, rfl⟩
      | marker v => cases hq (.marker v) (by simp)
  | cons e gone ih =>
    obtain ⟨n, rfl⟩ := Nat.exists_eq_succ_of_ne_zero (Nat.ne_of_gt (Nat.zero_lt_of_lt hn))
    obtain rfl := hg e (by simp)
    have k : State.kickFor (n + 1) s = State.kickFor n s.popQueue := by
      simp [State.kickFor, hb, ha]
    rw [Nat.succ_eq_add_one, k]
    exact ih n s.popQueue (fun e he => hg e (by simp [he])) (by simpa using hn) hb
      (by simp [State.popQueue, State.arbitrate, ha])

/-- The end of a freeze copy (R19): the store released, the marker and the void ones behind it gone. -/
theorem State.release_kick {void : Bool} {gone q : List QueueEntry} (hw : s.store.ownWaits) (ha : s.store.waitApply = none)
    (hs : s.apply.queue = .marker void :: gone ++ q) (hg : ∀ e ∈ gone, e = .marker true) (hn : gone.length ≤ 8)
    (hq : ∀ e ∈ q, e.isOrdered = true) :
    s.release.popQueue.kick.apply.queue = q ∧ s.release.popQueue.kick.sync = s.sync ∧
      s.release.popQueue.kick.store.use = s.store.use ∧ s.release.popQueue.kick.store.shadow = s.store.shadow := by
  obtain ⟨hb, hu⟩ := Store.release_others hw ha
  obtain ⟨queue, sync, use⟩ := State.kickFor_void hq gone (applyPlaces + 1) s.release.popQueue hg
    (by simp only [applyPlaces]; omega) hb (by simp [State.popQueue, State.arbitrate, State.release, hs])
  exact ⟨queue, sync, use.trans hu, (State.kickFor_looksOn _ _).shadow.trans Store.release_shadow⟩

theorem Store.request_use {st : Store} {op : StoreOp} (h : op ≠ .freezeCopy) : (st.request op).use = st.use := by
  unfold Store.request
  split
  · simp [Store.start, h]
  · cases hc : op.client <;> rfl

theorem State.readPart_use : s.readPart.store.use = s.store.use ∧ s.readPart.store.shadow = s.store.shadow := by
  unfold State.readPart
  split
  · exact ⟨Store.request_use (by simp), Store.request_shadow _⟩
  · exact ⟨rfl, rfl⟩

/-- LIVE copied into SHADOW, and the stream begun (R19, R167). -/
def State.frozen (s : State) : State :=
  (s.modStore fun st => { st with shadow := st.live, use := .frozen }).modSync fun y =>
    { y with responder := .sending, nextPart := some 1 }

theorem State.freezeDone_made (hd : s.store.dropped = false) (hr : s.sync.responder = .freezing) :
    s.freezeDone = s.frozen.release.popQueue.kick.readPart := by
  simp [State.freezeDone, hd, hr, State.frozen]

theorem State.freezeDone_abandoned (h : s.store.dropped = true ∨ s.sync.responder ≠ .freezing) :
    s.freezeDone = (s.modStore Store.emptyShadow).release.popQueue.kick := by
  have hm : (!s.store.dropped && decide (s.sync.responder = .freezing)) = false := by
    rcases h with h | h <;> simp [h]
  simp only [State.freezeDone, hm, Bool.false_eq_true, if_false]

/-- The freeze copy as the statement has it, where every waiting operation waits at its own client. -/
theorem freezeCopy_of_ownWaits {void : Bool} {gone q : List QueueEntry} (hw : s.store.ownWaits)
    (hh : s.store.holder = some .freezeCopy) (ha : s.store.waitApply = none) (hs : s.apply.queue = .marker void :: gone ++ q)
    (hg : ∀ e ∈ gone, e = .marker true) (hn : gone.length ≤ 8) (hq : ∀ e ∈ q, e.isOrdered = true) :
    ∃ t, exec .freezeCopy s = .next t ∧ Agree .live s t ∧ Agree .tb s t ∧ Agree .port s t ∧ t.apply.queue = q ∧
      (s.store.dropped = true → t.store.shadow = .empty ∧ t.store.use = .empty ∧ Agree .sync s t) ∧
      (s.store.dropped = false → s.sync.responder = .freezing → t.store.shadow = s.store.live ∧ t.store.use = .frozen ∧
        t.sync = { s.sync with responder := .sending, nextPart := some 1 }) ∧
      (s.sync.responder ≠ .freezing → t.store.shadow = .empty ∧ t.store.use = .empty) := by
  have hf : SameBut [.apply, .line, .sync, .store, .out] s s.freezeDone.followLights := by simp
  have ho : SameBut [.out] s.freezeDone s.freezeDone.followLights := by simp
  have hsy : s.freezeDone.followLights.sync = _ := ho .sync (by decide)
  have hst : s.freezeDone.followLights.store = _ := ho .store (by decide)
  have hap : s.freezeDone.followLights.apply = _ := ho .apply (by decide)
  refine ⟨_, execFreezeCopy_holding hh, hf .live (by decide), hf .tb (by decide), hf .port (by decide), ?_⟩
  rw [Agree, hsy, hst, hap]
  by_cases hm : s.store.dropped = false ∧ s.sync.responder = .freezing
  · obtain ⟨hd, hr⟩ := hm
    obtain ⟨kq, ky, ku, kh⟩ := State.release_kick (s := s.frozen) hw ha hs hg hn hq
    have hp : SameBut [.store] s.frozen.release.popQueue.kick s.frozen.release.popQueue.kick.readPart := by simp
    rw [State.freezeDone_made hd hr]
    exact ⟨(congrArg ApplyEngine.queue (hp .apply (by decide))).trans kq, fun h => absurd (hd.symm.trans h) (by simp),
      fun _ _ => ⟨State.readPart_use.2.trans kh, State.readPart_use.1.trans ku, (hp .sync (by decide)).trans ky⟩,
      fun h => absurd hr h⟩
  · have hm' : s.store.dropped = true ∨ s.sync.responder ≠ .freezing := by
      rcases Decidable.not_and_iff_or_not.mp hm with h | h
      · exact .inl (by simpa using h)
      · exact .inr h
    obtain ⟨kq, ky, ku, kh⟩ := State.release_kick (s := s.modStore Store.emptyShadow) hw ha hs hg hn hq
    rw [State.freezeDone_abandoned hm']
    exact ⟨kq, fun _ => ⟨kh, ku, ky⟩, fun hd hr => absurd ⟨hd, hr⟩ hm, fun _ => ⟨kh, ku⟩⟩

/-- A part read, as the statement has it (R168, R170). -/
theorem partRead_completes (hr : s.run = .run) {k : Nat} (hh : s.store.holder = some (.partRead k)) :
    ∃ t, exec .partRead s = .next t ∧ Agree .live s t ∧ Agree .tb s t ∧ Agree .port s t ∧
      (s.store.dropped = false → s.line.muted = false → s.line.bulk.length < 2 → SameBut [.store, .line, .out] s t ∧
        t.line.bulk = s.line.bulk ++ [⟨.part k (partContent s.store.shadow k), 0, false⟩] ∧
        t.store.shadow = s.store.shadow) ∧
      (s.store.dropped = true → SameBut [.store, .out] s t ∧ t.store.shadow = .empty ∧ t.store.use = .empty) := by
  have hf : SameBut [.apply, .line, .sync, .store, .out] s (s.partReadDone k).followLights := by simp
  have ho : SameBut [.out] (s.partReadDone k) (s.partReadDone k).followLights := by simp
  have hst := ho .store (by decide)
  have hli := ho .line (by decide)
  refine ⟨_, execPartRead_holding hh, hf .live (by decide), hf .tb (by decide), hf .port (by decide), fun hd hm hb => ?_,
    fun hd => ?_⟩
  · have ho : s.release.canOffer (.part k (partContent s.store.shadow k)) = true := by
      simp [State.canOffer, State.release, OutMsg.cls, Line.queue, TxClass.places, State.isRun, hr, hm, hb]
    have he : s.partReadDone k = s.release.enqueue (.part k (partContent s.store.shadow k)) := by
      simp [State.partReadDone, hd, ho]
    have hc (l : Line) (n : Nat) : (l.choose n).bulk = l.bulk := by
      unfold Line.choose; repeat' split
      all_goals rfl
    refine ⟨by simp [he], (congrArg Line.bulk hli).trans ?_, (congrArg Store.shadow hst).trans ?_⟩
    · rw [he]; exact hc _ _
    · rw [he]; exact Store.release_shadow
  · have he : s.partReadDone k = s.release.modStore Store.emptyShadow := by simp [State.partReadDone, hd]
    have hs : SameBut [.store] s (s.release.modStore Store.emptyShadow) :=
      (State.modStore_frame_live s.release _ rfl rfl).andThen
        (State.modStore_frame_live s _ (Store.release_live _) (Store.release_summary _)) (by simp)
    refine ⟨?_, (congrArg Store.shadow hst).trans ?_, (congrArg Store.use hst).trans ?_⟩ <;> rw [he]
    · exact (State.followLights_same (by simp)).mpr (hs.mono (by simp))
    · rfl
    · rfl

end Sys2Proof.Machine
end

section
/-! PROOFS. The read requests (O58): each reads its fields by one function; where they fit it acts, and where not it is refused. -/

namespace Sys2Proof.Machine

variable {s : State} {f : List Byte}

/-! ## The head request leaves -/

theorem State.refuse_reqRefused (s : State) (k : Option ReqKind) (r : RefuseReason) (d : RefuseDetail) :
    ReqRefused s (s.refuse k r d) k r d :=
  ⟨by simp, rfl⟩

/-- A notice posted leaves the queue of requests (R196), so the head that leaves after it is the one answered. -/
theorem State.post_requestDone_replied (s : State) (n : Notice) : Replied s (s.post n).requestDone n := by
  refine ⟨by simp, ?_⟩
  obtain ⟨-, -, requests, -⟩ := Port.post_grows s.port n
  show ({ s.port.post n with requests := (s.port.post n).requests.tail, inHand := false } : Port) = _
  rw [requests]

/-! ## The head request waits in hand for the store -/

theorem Store.request_free {st : Store} (h : st.holder = none) (op : StoreOp) : st.request op = st.start op := by
  simp [Store.request, h]

theorem Store.request_held {st : Store} (h : st.holder ≠ none) (op : StoreOp) :
    st.request op = st.setWaiting op.client (some op) := by
  simp [Store.request, h]

/-- A read of the host port holds the store at once where it is free, and else waits in the port's place (R18, R195). -/
theorem State.storeRead_waits (s : State) {op : StoreOp} (hc : op.client = .port) :
    SameBut [.store, .port] s (s.storeRead op) ∧ (s.storeRead op).port = { s.port with inHand := true } ∧
      (s.store.holder = none → (s.storeRead op).store.holder = some op) ∧
      (s.store.holder ≠ none → (s.storeRead op).store.waitPort = some op) := by
  have hs : (s.storeRead op).store = s.store.request op := rfl
  refine ⟨by simp, rfl, fun h => ?_, fun h => ?_⟩
  · rw [hs, Store.request_free h]; rfl
  · rw [hs, Store.request_held h, hc]; rfl

/-! ## The form of a read request -/

theorem readId_eq_none : readId f = none ↔ f.length ≠ 2 := by
  match f with
  | [] | [_] | [_, _] => simp [readId]
  | _ :: _ :: _ :: _ => simp [readId]

theorem noFields_eq_none : noFields f = none ↔ f.length ≠ 0 := by
  simp [noFields]

theorem State.readRequest_fits {α : Type} (h : s.run = .run) (k : ReqKind) (f : List Byte) (a : α) (act : α → State) :
    s.readRequest k f (some a) act = act a := by
  simp [State.readRequest, State.isRun, h]

theorem State.readRequest_unfit {α : Type} (h : s.run = .run) (k : ReqKind) (f : List Byte) (act : α → State) :
    s.readRequest k f none act = s.refuse (some k) .badRequest (.argument f) := by
  simp [State.readRequest, State.isRun, h]

/-- The command `c` handles the read requests of kind `k`: it reads their fields by `arg` and then does `act`. -/
def HandlesRead {α : Type} (k : ReqKind) (c : Instr) (arg : List Byte → Option α) (act : α → State → State) : Prop :=
  ∀ s, exec c s = .next (s.handle k fun f s => s.readRequest k f (arg f) fun a => act a s)

theorem readItem_handles : HandlesRead .readItem .readItem readId fun id s => s.storeRead (.itemRead id) := fun _ => rfl

theorem readOrder_handles : HandlesRead .readOrder .readOrder noFields fun _ s => s.storeRead .orderRead := fun _ => rfl

theorem readPeer_handles : HandlesRead .readPeer .readPeer readNumber fun n s => (s.post (s.peerReply n)).requestDone :=
  fun _ => rfl

theorem readTiming_handles :
    HandlesRead .readTiming .readTiming noFields fun _ s => (s.post (.timingReply s.timingReply)).requestDone := fun _ => rfl

theorem readArmed_handles :
    HandlesRead .readArmed .readArmed readNumber fun i s => (s.post (.armedReply (s.armedReply i.val))).requestDone :=
  fun _ => rfl

section

variable {α : Type} {k : ReqKind} {c : Instr} {arg : List Byte → Option α} {act : α → State → State}

/-- In RUN a read request whose fields fit is acted on (R203). -/
theorem HandlesRead.fits (hc : HandlesRead k c arg act) (h : s.asked k f) {a : α} (ha : arg f = some a) :
    exec c s = .next (act a s) := by
  rw [hc, State.handle_asked h, ha, State.readRequest_fits h.1]

/-- In RUN a read request whose fields do not fit is refused with its bytes as they were written (R204). -/
theorem HandlesRead.unfit (hc : HandlesRead k c arg act) (h : s.asked k f) (ha : arg f = none) :
    ∃ t, exec c s = .next t ∧ ReqRefused s t (some k) .badRequest (.argument f) := by
  refine ⟨_, ?_, State.refuse_reqRefused s _ _ _⟩
  rw [hc, State.handle_asked h, ha, State.readRequest_unfit h.1]

end

/-! ## The reply to READ_PEER -/

theorem State.peerReply_other {n : StationNo} (h : n ≠ s.straps.number) : s.peerReply n = .peerReply (s.peer n) :=
  if_neg h

theorem State.peerReply_own {n : StationNo} (h : n = s.straps.number) :
    s.peerReply n = .ownReply s.roster.lastSent s.presence s.line.record :=
  if_pos h

/-- Settles O58: each kind by the way its command reads its fields, and what the command then does. -/
theorem readRequestsHandled : Obligations.ReadRequestsHandled := by
  intro s f
  refine ⟨fun id h hid => ?item, fun h => ?order, fun n h hn hother => ?peer, fun n h hn hown => ?own, fun h => ?timing,
    fun i h hi => ?armed, fun x hx h hbad => ?refused⟩
  case item => exact ⟨_, readItem_handles.fits h hid, State.storeRead_waits s rfl⟩
  case order => exact ⟨_, readOrder_handles.fits h rfl, State.storeRead_waits s rfl⟩
  case peer =>
    refine ⟨_, readPeer_handles.fits h hn, ?_⟩
    rw [← State.peerReply_other hother]
    exact State.post_requestDone_replied s _
  case own =>
    refine ⟨_, readPeer_handles.fits h hn, ?_⟩
    rw [← State.peerReply_own hown]
    exact State.post_requestDone_replied s _
  case timing => exact ⟨_, readTiming_handles.fits h rfl, State.post_requestDone_replied s _⟩
  case armed => exact ⟨_, readArmed_handles.fits h hi, State.post_requestDone_replied s _⟩
  case refused =>
    simp only [List.mem_cons, List.not_mem_nil, or_false] at hx
    obtain rfl | rfl | rfl | rfl | rfl := hx
    · exact readItem_handles.unfit h (readId_eq_none.mpr (of_decide_eq_false hbad))
    · exact readOrder_handles.unfit h (noFields_eq_none.mpr (of_decide_eq_false hbad))
    · exact readPeer_handles.unfit h (Option.isNone_iff_eq_none.mp (Option.isSome_eq_false_iff.mp hbad))
    · exact readTiming_handles.unfit h (noFields_eq_none.mpr (of_decide_eq_false hbad))
    · exact readArmed_handles.unfit h (Option.isNone_iff_eq_none.mp (Option.isSome_eq_false_iff.mp hbad))

end Sys2Proof.Machine
end

section
/-! PROOFS. The state after reset (O3). -/

namespace Sys2Proof.Machine

/-- The check word is none of the bytes it is computed over (R1). -/
theorem Replica.checkWord_of_check (r : Replica) (w : Word) : ({ r with check := w } : Replica).checkWord = r.checkWord :=
  congrArg crc32 rfl

theorem Replica.empty_check : Replica.empty.check = Replica.empty.checkWord :=
  (Replica.checkWord_of_check ⟨0, 0, none, 0, []⟩ _).symm

theorem Store.reset_waiting (c : Client) : Store.reset.waiting c = none := by cases c <;> rfl

theorem Scheduler.reset_resources (r : Fin 16) : Scheduler.reset.resources[r] = ⟨.idle, none, none, none⟩ :=
  Vector.getElem_replicate r.isLt

theorem Scheduler.reset_groups (g : Fin 4) : Scheduler.reset.groups[g] = none := Vector.getElem_replicate g.isLt

theorem Output.reset_lights (l : Fin 8) : Output.reset.lights[l] = .off := Vector.getElem_replicate l.isLt

theorem Output.reset_pips (l : Fin 2) : Output.reset.pips[l] = none := Vector.getElem_replicate l.isLt

theorem Roster.reset_peers (n : StationNo) : Roster.reset.peers[n] = ⟨false, none, none, 0⟩ :=
  Vector.getElem_replicate n.isLt

/-- Settles O3: the single values are those of the reset records, and a table holds one value at every place. -/
theorem resetState : Obligations.ResetState :=
  ⟨rfl, rfl, rfl, rfl, rfl, rfl, rfl, rfl, rfl, Replica.empty_check, rfl, rfl, rfl, rfl, Store.reset_waiting, rfl, rfl, rfl,
    Scheduler.reset_resources, Scheduler.reset_groups, rfl, rfl, rfl, rfl, rfl, rfl, rfl,
    fun l => ⟨Output.reset_lights l, rfl⟩, fun l => ⟨Output.reset_pips l, rfl, rfl⟩, rfl, rfl, rfl, rfl, rfl, rfl,
    Roster.reset_peers, rfl, rfl, rfl, rfl⟩

end Sys2Proof.Machine
end

section
/-! PROOFS. The station reset, RESTART, and the reset pin held (O4). -/

namespace Sys2Proof.Machine

variable {s : State}

/-! ## While the reset pin is asserted -/

/-- What the reset pin holds of a station: all that a command looks at before it acts (R147). A host transfer that is running
is one ignored to its end (R206). -/
structure State.Held (s : State) : Prop where
  run : s.run = .reset
  unusable : s.usable = false
  free : s.store.holder = none
  unasked : ∀ c, s.store.waiting c = none
  ignored : s.port.transfer = none ∨ s.port.transfer = some .ignored

theorem State.resetTo_held (pins : Straps) (q : List Instr) {x : Option Transfer} (hx : x = none ∨ x = some .ignored) :
    ((State.resetTo .reset pins q).withTransfer x).Held :=
  ⟨rfl, rfl, rfl, fun c => by cases c <;> rfl, hx⟩

theorem State.done_unusable (h : s.usable = false) : s.done = .next s := by
  rw [State.done, State.followLights_unusable h]

theorem State.handle_reset (h : s.run = .reset) (k : ReqKind) (f : List Byte → State → State) : s.handle k f = s := by
  simp [State.handle, h]

theorem State.applyEdit_free (h : s.store.holder = none) (row : RawOp → Bool) : s.applyEdit row = s := by
  simp [State.applyEdit, State.applying, h]

theorem Store.grantNext_unasked {st : Store} (h : ∀ c, st.waiting c = none) : st.grantNext = st := by
  rcases Store.grantNext_cases st with e | ⟨c, op, hw, -⟩
  · exact e
  · rw [h c] at hw; cases hw

/-! ## Host transfers meanwhile -/

theorem State.withTransfer_own (s : State) : s.withTransfer s.port.transfer = s := rfl

theorem State.wholeTransfer_reset (h : s.run = .reset) (f : Port → Port) : s.wholeTransfer f = s := by
  simp only [State.wholeTransfer, h, true_or, if_true]
  rfl

theorem State.Held.beginTransfer (h : s.Held) (f : Port → Port) : s.beginTransfer f = s.withTransfer (some .ignored) := by
  rcases h.ignored with ht | ht
  · simp [State.beginTransfer, State.modPort, State.withTransfer, h.run, ht]
  · simp only [State.beginTransfer, State.modPort, ht, Option.isSome_some, if_true]
    rw [← ht, State.withTransfer_own]

theorem State.Held.endTransfer (h : s.Held) (code : Byte) (f : Port → Port) :
    s.endTransfer code f = s.withTransfer none := by
  rcases h.ignored with ht | ht
  · simp only [State.endTransfer, State.modPort, ht]
    rw [← ht, State.withTransfer_own]
  · simp [State.endTransfer, State.modPort, State.withTransfer, ht]

theorem State.Held.lastByte (h : s.Held) : s.port.lastByte = s.port := by
  rcases h.ignored with ht | ht <;> simp [Port.lastByte, ht]

/-- The transfer that a command of a held station leaves in progress: one that begins is ignored (R206). -/
def State.transferHeld (s : State) (c : Instr) : Option Transfer :=
  if beginsTransfer c then some .ignored else if endsTransfer c then none else s.port.transfer

/-- While the reset pin is asserted a command but the two of the pin moves the host transfer alone (R147, R206). -/
theorem State.Held.exec (h : s.Held) {c : Instr} (hpin : c ≠ .resetPin) (hend : ∀ p, c ≠ .resetEnd p) :
    exec c s = .next (s.withTransfer (s.transferHeld c)) := by
  cases c
  case resetPin => exact absurd rfl hpin
  case resetEnd p => exact absurd rfl (hend p)
  case referencePulse | refLost | flywheelPulse | silence | acquireTimeout | holdoverExpired | warnPoint | expiryPoint |
      endingRecordDropped | peerAbsent | founded | askWaitExpires | askRetryExpires | gapTimeout | collision |
      transmissionComplete | scan | itemEndCancel =>
    exact (congrArg State.done (State.inRun_reset h.run _ _)).trans (State.done_unusable h.unusable)
  case recoveryEnds | pipStarts | pipEnds | responseWaitExpires | yieldFailed | transmitAttempt | shadowRecordsExpire |
      backoffExpires =>
    exact congrArg Host.Outcome.next (State.inRun_reset h.run _ _)
  case rearmRead | takeoverRead | standby | take | hold | resume | skip | close =>
    exact (congrArg State.done (State.live_reset h.run _ _)).trans (State.done_unusable h.unusable)
  case markCapture | configure => exact congrArg Host.Outcome.next (State.live_reset h.run _ _)
  case receiveOrderedMessage | receiveMark | receivePresence | receiveAsk | receiveReady | receiveRelay | receiveYield |
      receivePartOpening | receivePart | badReception =>
    exact (congrArg State.done (State.reception_reset h.run _ _)).trans (State.done_unusable h.unusable)
  case insert | delete | move | amend | addCue | dropCue | setOut | revive =>
    exact (congrArg State.done (State.applyEdit_free h.free _)).trans (State.done_unusable h.unusable)
  case storeGrant =>
    have hg : s.modStore Store.grantNext = s := by rw [State.modStore, Store.grantNext_unasked h.unasked]
    exact congrArg Host.Outcome.next ((if_pos (by rw [h.free]; rfl)).trans hg)
  case freezeCopy | shadowCheck | bankSwap | projectionRead =>
    exact (congrArg State.done (if_neg (by simp [h.free]))).trans (State.done_unusable h.unusable)
  case partRead =>
    show execPartRead s = .next s
    rw [execPartRead, h.free, State.done_unusable h.unusable]
  case partWrite =>
    show execPartWrite s = .next s
    rw [execPartWrite, h.free, State.done_unusable h.unusable]
  case itemReadComplete =>
    show execItemReadComplete s = .next s
    rw [execItemReadComplete, h.free]
  case orderReadComplete => exact congrArg Host.Outcome.next (if_neg (by simp [h.free]))
  case requestWrite n b =>
    cases n
    · exact congrArg Host.Outcome.next (State.wholeTransfer_reset h.run _)
    · exact congrArg Host.Outcome.next (h.beginTransfer _)
    · exact congrArg Host.Outcome.next (h.endTransfer _ _)
  case noticeRead n =>
    cases n
    · exact congrArg Host.Outcome.next (State.wholeTransfer_reset h.run _)
    · exact congrArg Host.Outcome.next (h.beginTransfer _)
    · exact congrArg (fun p => Host.Outcome.next ({ s with port := p } : State)) h.lastByte
    · exact congrArg Host.Outcome.next (h.endTransfer _ _)
  case portControlWrite n =>
    cases n
    · exact congrArg Host.Outcome.next (State.wholeTransfer_reset h.run _)
    · exact congrArg Host.Outcome.next (h.beginTransfer _)
    · exact congrArg Host.Outcome.next (h.endTransfer _ _)
  case portStatusRead => exact congrArg Host.Outcome.next (State.wholeTransfer_reset h.run _)
  case invalidTransfer => exact congrArg Host.Outcome.next (h.endTransfer _ _)
  case restart | propose | standbyRequest | takeRequest | holdRequest | resumeRequest | skipRequest | closeRequest |
      yieldRequest | relayRequest | readItem | readOrder | readPeer | readTiming | readArmed =>
    exact congrArg Host.Outcome.next (State.handle_reset h.run _ _)
  case unknownRequest => exact congrArg Host.Outcome.next (if_pos (.inl h.run))

/-! ## RESTART -/

theorem execRestart_head (pins : Straps) (hr : s.run ≠ .reset) (hi : s.port.inHand = false) {r : List Byte}
    {q : List (List Byte)} (hq : s.port.requests = r :: q) (hk : reqKind r = some .restart) :
    exec (.restart pins) s =
      .next (if r.tail.isEmpty then s.resetNow .start pins else s.refuse (some .restart) .badRequest .none) :=
  congrArg Host.Outcome.next (State.handle_head hr hi hq hk _)

/-- Settles O4: the two commands of the pin and RESTART put the reset state in place, and a held station heeds no other. -/
theorem resetAndRestart : Obligations.ResetAndRestart := by
  refine ⟨fun s pins => ⟨rfl, rfl⟩, fun s pins r q hr hi hq hk => ⟨fun ht => ?_, fun ht => ?_⟩,
    fun c pins q x hpin hend hx => (State.resetTo_held pins q hx).exec hpin hend⟩
  · rw [execRestart_head pins hr hi hq hk, if_pos (List.isEmpty_iff.mpr ht)]
    rfl
  · refine ⟨_, ?_, State.refuse_reqRefused s _ _ _⟩
    rw [execRestart_head pins hr hi hq hk, if_neg (mt List.isEmpty_iff.mp ht)]

end Sys2Proof.Machine
end

section
/-! PROOFS. Requests in START, and CONFIGURE (O54). -/

namespace Sys2Proof.Machine

variable {s : State}

/-! ## Requests in START -/

/-- The command `c` handles the requests of kind `k`, and refuses them first of all where the station is not in RUN (R204). -/
def RefusesUnconfigured (k : ReqKind) (c : Instr) : Prop :=
  ∃ act : List Byte → State → State, (∀ s, exec c s = .next (s.handle k act)) ∧
    ∀ f s, s.isRun = false → act f s = s.refuse (some k) .notConfigured (k.detail f)

theorem State.airRequest_unconfigured (h : s.isRun = false) (k : ReqKind) (d : RefuseDetail)
    (more : List (Bool × RefuseReason)) (m : Option AirMsg) :
    s.airRequest k d more m = s.refuse (some k) .notConfigured d := by
  simp [State.airRequest, State.airChecks, firstFailing, h]

theorem State.readRequest_unconfigured {α : Type} (h : s.isRun = false) (k : ReqKind) (f : List Byte) (a : Option α)
    (act : α → State) : s.readRequest k f a act = s.refuse (some k) .notConfigured (.argument f) := by
  simp [State.readRequest, h]

/-- Every request but CONFIGURE and RESTART is of a command that looks at the run state first. -/
theorem requestRows_refuseUnconfigured {x : ReqKind × Instr} (hx : x ∈ requestRows) : RefusesUnconfigured x.1 x.2 := by
  simp only [requestRows, List.mem_cons, List.not_mem_nil, or_false] at hx
  obtain rfl | rfl | rfl | rfl | rfl | rfl | rfl | rfl | rfl | rfl | rfl | rfl | rfl | rfl := hx
  · exact ⟨_, fun _ => rfl, fun f s h => by simp [firstFailing, h, ReqKind.detail]⟩
  iterate 6 exact ⟨_, fun _ => rfl, fun f s h => State.airRequest_unconfigured h _ _ _ _⟩
  iterate 2 exact ⟨_, fun _ => rfl, fun f s h => by simp [firstFailing, h, ReqKind.detail]⟩
  iterate 5 exact ⟨_, fun _ => rfl, fun f s h => State.readRequest_unconfigured h _ f _ _⟩

theorem RefusesUnconfigured.inStart {k : ReqKind} {c : Instr} (hc : RefusesUnconfigured k c) (hr : s.run = .start)
    (hi : s.port.inHand = false) {r : List Byte} {q : List (List Byte)} (hq : s.port.requests = r :: q)
    (hk : reqKind r = some k) :
    ∃ t, exec c s = .next t ∧ ReqRefused s t (some k) .notConfigured (k.detail r.tail) := by
  obtain ⟨act, handles, refuses⟩ := hc
  refine ⟨_, ?_, State.refuse_reqRefused s _ _ _⟩
  rw [handles, State.handle_head (by simp [hr]) hi hq hk, refuses _ _ (by simp [State.isRun, hr])]

/-! ## CONFIGURE -/

/-- The head request leaves the queue (R195), where `q` stands behind it and none is in hand. -/
theorem Port.head_leaves {p : Port} {r : List Byte} {q : List (List Byte)} (hi : p.inHand = false)
    (hq : p.requests = r :: q) : ({ p with requests := p.requests.tail, inHand := false } : Port) = { p with requests := q } := by
  rw [hq, ← hi]
  rfl

theorem State.refuse_port {r : List Byte} {q : List (List Byte)} (hi : s.port.inHand = false)
    (hq : s.port.requests = r :: q) (k : Option ReqKind) (why : RefuseReason) (d : RefuseDetail) :
    (s.refuse k why d).port = ({ s.port with requests := q } : Port).post (.reqRefused k why d) := by
  rw [← Port.head_leaves hi hq]
  rfl

/-- CONFIGURE in RUN is refused; in START its fields are judged (R149, R150). -/
theorem execConfigure_head (dt : Nat) (hr : s.run ≠ .reset) (hi : s.port.inHand = false) {r : List Byte}
    {q : List (List Byte)} (hq : s.port.requests = r :: q) (hk : reqKind r = some .configure) :
    exec (.configure dt) s = .next (if s.isRun then (s.elapse dt).refuse (some .configure) .notInStart (.configure none)
      else match configError s.straps.number r.tail with
        | some e => (s.elapse dt).refuse (some .configure) .badRequest (.configure (some e))
        | none => (s.elapse dt).configure (configOf r.tail)) := by
  have h := State.handle_head (s := s.elapse dt) hr hi hq hk fun f s =>
    if s.isRun then s.refuse (some .configure) .notInStart (.configure none)
    else match configError s.straps.number f with
      | some e => s.refuse (some .configure) .badRequest (.configure (some e))
      | none => s.configure (configOf f)
  exact congrArg Host.Outcome.next ((if_neg hr).trans h)

theorem State.configure_same (s : State) (c : Cfg) : SameBut [.run, .cfg, .tb, .pair, .port] s (s.configure c) := by
  have h : SameBut [.run, .cfg] s ({ s with cfg := some c, run := .run } : State) := by
    intro p hp; cases p <;> first | rfl | exact ⟨rfl, rfl⟩ | simp at hp
  refine (h.mono (by simp)).trans ?_
  simp [State.configure]

/-- CONFIG_DONE carries the pair number of the new configuration and the role it gives (R149, R150). -/
theorem State.configure_port {r : List Byte} {q : List (List Byte)} (hi : s.port.inHand = false)
    (hq : s.port.requests = r :: q) (c : Cfg) :
    (s.configure c).port = ({ s.port with requests := q } : Port).post
      (.configDone s.straps.number s.straps.timeCapable s.straps.directorCapable c.pairMode
        ({ s with cfg := some c } : State).pairNumber (s.configure c).pair.role) := by
  rw [← Port.head_leaves hi hq]
  rfl

/-- Settles O54: in START the head request is refused, or its CONFIGURE judged by its fields. -/
theorem configureHandled : Obligations.ConfigureHandled := by
  refine ⟨fun x hx s r q hr hi hq hk => (requestRows_refuseUnconfigured hx).inStart hr hi hq hk,
    fun s dt r q hi hq hk => ⟨fun hr he => ?_, fun e hr he => ?_, fun hr => ?_⟩⟩
  · refine ⟨(s.elapse dt).configure (configOf r.tail), ?_, ?_, rfl, rfl, rfl, rfl, ?_⟩
    · rw [execConfigure_head dt (by simp [hr]) hi hq hk, he]
      simp [State.isRun, hr]
    · exact ((State.elapse_frame s dt).mono (by simp)).trans ((State.configure_same _ _).mono (by simp))
    · exact State.configure_port (s := s.elapse dt) hi hq _
  · refine ⟨_, ?_, ?_, State.refuse_port (s := s.elapse dt) hi hq _ _ _⟩
    · rw [execConfigure_head dt (by simp [hr]) hi hq hk, he]
      simp [State.isRun, hr]
    · simp
  · refine ⟨_, ?_, ?_, State.refuse_port (s := s.elapse dt) hi hq _ _ _⟩
    · rw [execConfigure_head dt (by simp [hr]) hi hq hk, State.isRun, decide_eq_true hr, if_pos rfl]
    · simp

end Sys2Proof.Machine
end

section
/-! PROOFS. What joins the notice queues stays there (R196): the operations of the roster, the sync engine and the pair
monitor keep every notice posted before. -/

namespace Sys2Proof.Machine

variable {s t u : State} {p : Port}

/-! ## Notices posted -/

@[simp] theorem Posted.refl (t : State) : Posted t.port t := ⟨List.prefix_refl _, List.prefix_refl _⟩

theorem Posted.trans (h : Posted p t) (k : Posted t.port u) : Posted p u := ⟨h.1.trans k.1, h.2.trans k.2⟩

theorem Posted.of_grows {q : Port} (h : p.grows q) (hu : u.port = q) : Posted p u := by
  obtain ⟨urgent, routine, -, -⟩ := h
  subst hu
  exact ⟨urgent, routine⟩

/-- An operation that leaves the port alone. -/
theorem Posted.step {ps : List Part} (h : SameBut ps t u) (hp : Part.port ∉ ps) : Posted p u ↔ Posted p t := by
  have e : u.port = t.port := h .port hp
  rw [Posted, Posted, e]

theorem Posted.announced {n : Notice} (h : Posted s.port u) (k : Posted (u.port.post n) t) : Announced s t n :=
  ⟨u.port, h.1, h.2, k⟩

/-- A notice announced stays so while notices only join the tails. -/
theorem Announced.later {n : Notice} (h : Announced s t n) (k : Posted t.port u) : Announced s u n := by
  obtain ⟨q, urgent, routine, posted⟩ := h
  exact ⟨q, urgent, routine, posted.trans k⟩

@[simp] theorem State.post_posted (h : Posted p t) (n : Notice) : Posted p (t.post n) :=
  h.trans (.of_grows (Port.post_grows t.port n) rfl)

/-! ## Operations that leave the port alone -/

@[simp] theorem State.modRoster_posted (f : Roster → Roster) : Posted p (t.modRoster f) ↔ Posted p t := .rfl
@[simp] theorem State.modSync_posted (f : Sync → Sync) : Posted p (t.modSync f) ↔ Posted p t := .rfl
@[simp] theorem State.modPair_posted (f : Pair → Pair) : Posted p (t.modPair f) ↔ Posted p t := .rfl
@[simp] theorem State.modSched_posted (f : Scheduler → Scheduler) : Posted p (t.modSched f) ↔ Posted p t := .rfl
@[simp] theorem State.withdraw_posted (f : OutMsg → Bool) : Posted p (t.withdraw f) ↔ Posted p t := .rfl

@[simp] theorem State.followLights_posted : Posted p t.followLights ↔ Posted p t :=
  Posted.step (ps := [.out]) (by simp) (by decide)

@[simp] theorem State.wantReads_posted : Posted p t.wantReads ↔ Posted p t :=
  Posted.step (ps := [.store]) (by simp) (by decide)

@[simp] theorem State.discardOrdered_posted : Posted p t.discardOrdered ↔ Posted p t :=
  Posted.step (ps := [.apply, .line, .store]) (by simp) (by decide)

@[simp] theorem State.kick_posted : Posted p t.kick ↔ Posted p t :=
  Posted.step (ps := [.apply, .line, .sync, .store]) (by simp) (by decide)

@[simp] theorem State.abandonResponder_posted : Posted p t.abandonResponder ↔ Posted p t :=
  Posted.step (ps := [.apply, .line, .sync, .store]) (by simp) (by decide)

/-! ## Operations that post -/

@[simp] theorem State.postPeer_posted (h : Posted p t) (n : StationNo) : Posted p (t.postPeer n) := State.post_posted h _

@[simp] theorem State.setStep_posted (h : Posted p t) (n : StepState) (c : StepCause) : Posted p (t.setStep n c) :=
  State.post_posted (t := t.modSync _) h _

@[simp] theorem State.sendFailedAll_posted (h : Posted p t) (l : List OutMsg) (r : FailReason) :
    Posted p (t.sendFailedAll l r) := by
  induction l generalizing t with
  | nil => exact h
  | cons m l ih =>
    refine ih ?_
    simp only [State.sendFailed]
    split
    · exact h
    · exact State.post_posted h _

@[simp] theorem State.takeOver_posted (h : Posted p t) (d : Option Frame) :
    Posted p (t.emit fun env m => m.takeOver env d) := by
  have k : t.port.grows (Emit.takeOver t.env d ⟨t.sched, t.out, t.port⟩).port :=
    Emit.takeOver_sat (Emit.grows_closed t.port) (m := ⟨t.sched, t.out, t.port⟩) (Port.grows_refl _) t.env d
  exact h.trans (.of_grows k rfl)

/-- The ROLE notice, and then what the settlement of R190 posts. -/
theorem State.becomeActive_tells (s : State) (c : RoleCause) :
    Posted (s.port.post (.role .active s.pair.role c s.now s.config.partner s.partnerPresent s.partnerDone))
      (s.becomeActive c) := by
  simp only [State.becomeActive]
  rw [State.wantReads_posted]
  refine State.takeOver_posted ?_ _
  rw [State.modPair_posted]
  exact Posted.refl (s.postRole .active c)

@[simp] theorem State.becomeActive_posted (h : Posted p t) (c : RoleCause) : Posted p (t.becomeActive c) :=
  (State.post_posted h _).trans (State.becomeActive_tells t c)

@[simp] theorem State.becomeStandby_posted (h : Posted p t) (c : RoleCause) : Posted p (t.becomeStandby c) :=
  State.post_posted h _

@[simp] theorem State.block_posted (h : Posted p t) (c : RoleCause) : Posted p (t.block c) := by
  unfold State.block
  split
  · exact h
  · exact State.post_posted (t := t.modPair _) h _

/-- What the takeover test can come to (R181). -/
theorem State.takeoverTest_cases (s : State) : s.takeoverTest = s ∨ (∃ c, s.fit = true ∧ s.takeoverTest = s.becomeActive c) ∨
    (∃ c, s.fit = false ∧ s.takeoverTest = s.block c) ∨ s.takeoverTest = s.modPair fun q => { q with blocked := false } := by
  unfold State.takeoverTest
  split
  · exact .inl rfl
  · split
    · next c _ =>
      cases hf : s.fit
      · exact .inr (.inr (.inl ⟨c, rfl, rfl⟩))
      · exact .inr (.inl ⟨c, rfl, rfl⟩)
    · exact .inr (.inr (.inr rfl))

@[simp] theorem State.takeoverTest_posted (h : Posted p t) : Posted p t.takeoverTest := by
  obtain e | ⟨c, -, e⟩ | ⟨c, -, e⟩ | e := t.takeoverTest_cases <;> rw [e]
  · exact h
  · exact State.becomeActive_posted h c
  · exact State.block_posted h c
  · exact h

@[simp] theorem State.fitnessChanged_posted (h : Posted p t) : Posted p t.fitnessChanged := State.takeoverTest_posted h

@[simp] theorem State.resolveDoubled_posted (h : Posted p t) (c : Presence) : Posted p (t.resolveDoubled c) := by
  unfold State.resolveDoubled
  repeat' split
  all_goals simp [h]

@[simp] theorem State.partnerHeard_posted (h : Posted p t) (c : Presence) : Posted p (t.partnerHeard c) := by
  simp only [State.partnerHeard]
  repeat' split
  all_goals simp [h]

/-! ## Changes of step -/

/-- The STEP notice comes first of what a change to IN_STEP brings (R177, log 9). -/
theorem State.enterInStep_tells (s : State) (c : StepCause) :
    Posted (s.port.post (.step .inStep s.sync.step c s.store.summary)) (s.enterInStep c) :=
  State.fitnessChanged_posted (State.kick_posted.mpr (Posted.refl (s.setStep .inStep c)))

@[simp] theorem State.enterInStep_posted (h : Posted p t) (c : StepCause) : Posted p (t.enterInStep c) :=
  (State.post_posted h _).trans (State.enterInStep_tells t c)

@[simp] theorem State.leaveInStep_posted (h : Posted p t) (c : StepCause) : Posted p (t.leaveInStep c) := by
  simp only [State.leaveInStep]
  split
  · exact h
  · simp (maxDischargeDepth := 10) [h]

@[simp] theorem State.syncHeard_posted (h : Posted p t) (c : Presence) : Posted p (t.syncHeard c) := by
  simp only [State.syncHeard]
  repeat' split
  all_goals simp [h]

end Sys2Proof.Machine
end

section
/-! PROOFS. A peer falls ABSENT (O20), with the takeover test of its partner. -/

namespace Sys2Proof.Machine

variable {s t : State} {n : StationNo}

/-! ## Where a timer's command acts -/

theorem State.elapse_zero (s : State) : s.elapse 0 = s := rfl

/-- A command without real time, in RUN: its work, and the light lines catching up with their claims. -/
theorem State.inRun_done (h : s.run = .run) (f : State → State) : (s.inRun 0 f).done = .next (f s).followLights := by
  rw [State.inRun_run h, State.elapse_zero]
  rfl

/-! ## The roster -/

theorem Roster.setPeer_same (r : Roster) (n : StationNo) (e : PeerEntry) : (r.setPeer n e).peers[n] = e :=
  Vector.getElem_set_self n.isLt

theorem Roster.setPeer_other (r : Roster) {n m : StationNo} (h : m ≠ n) (e : PeerEntry) :
    (r.setPeer n e).peers[m] = r.peers[m] :=
  Vector.getElem_set_ne n.isLt m.isLt fun hv => h (Fin.ext hv.symm)

theorem State.peer_of_roster {r : Roster} (h : t.roster = r) (n : StationNo) : t.peer n = r.peers[n] := by rw [State.peer, h]

/-! ## The takeover test -/

theorem State.becomeActive_pair (c : RoleCause) :
    (s.becomeActive c).pair = { s.pair with role := .active, blocked := false } :=
  (State.wantReads_same (by simp)).mpr (SameBut.refl [.store] _) .pair (by decide)

theorem State.block_pair (c : RoleCause) : (s.block c).pair = { s.pair with blocked := true } := by
  unfold State.block
  split
  · next h => rw [← h]
  · rfl

theorem State.block_port (c : RoleCause) : (s.block c).port = if s.pair.blocked then s.port else
    s.port.post (.takeoverBlocked c s.partnerPresent (s.partnerContents.map (·.role)) (decide (s.sync.step ≠ .inStep))
      (!s.usable) s.line.muted) := by
  unfold State.block
  split <;> rfl

/-- A STANDBY member in RUN that has left JOINING, with a cause to take over (R181, R182). -/
theorem State.takeoverTest_cause (hr : s.run = .run) (hp : s.config.pairMode ≠ .none) (hs : s.pair.role = .standby)
    (hj : s.sync.step ≠ .joining) {c : RoleCause} (hc : s.takeoverCause = some c) :
    s.takeoverTest = if s.fit then s.becomeActive c else s.block c := by
  simp [State.takeoverTest, State.isRun, State.isPaired, hr, hp, hs, hj, hc]

theorem State.takeoverTest_idle (h : s.config.pairMode = .none ∨ s.pair.role ≠ .standby ∨ s.sync.step = .joining) :
    s.takeoverTest = s := by
  refine if_pos ?_
  rcases h with h | h | h <;> simp [State.isPaired, h]

/-- The takeover test leaves the fitness record of the partner alone (R180). -/
theorem State.takeoverTest_fitness (s : State) : s.takeoverTest.pair.fitness = s.pair.fitness := by
  obtain e | ⟨c, -, e⟩ | ⟨c, -, e⟩ | e := s.takeoverTest_cases <;> rw [e]
  · rw [State.becomeActive_pair]
  · rw [State.block_pair]
  · rfl

/-! ## An entry falls ABSENT -/

/-- The entry of station `n` ABSENT with its contents kept, and PEER posted (R155). -/
def State.fallen (s : State) (n : StationNo) : State :=
  (s.modRoster (·.setPeer n { s.peer n with present := false })).postPeer n

theorem State.peerExpire_falls (hp : (s.peer n).present = true) (hn : 30 ≤ (s.peer n).silence) :
    s.peerExpire n = if s.config.partner = some n then (s.fallen n).partnerLost else s.fallen n :=
  if_pos ⟨hp, hn⟩

theorem State.fallen_same (s : State) (n : StationNo) : SameBut [.roster, .port] s (s.fallen n) := by
  simp [State.fallen]

theorem State.fallen_peer (s : State) (n : StationNo) : (s.fallen n).peer n = { s.peer n with present := false } :=
  Roster.setPeer_same _ _ _

theorem State.fallen_port (s : State) (n : StationNo) :
    (s.fallen n).port = s.port.post (.peer n false s.now (s.peer n).contents) := by
  have h : (s.modRoster (·.setPeer n { s.peer n with present := false })).peer n = { s.peer n with present := false } :=
    Roster.setPeer_same _ _ _
  simp only [State.fallen, State.postPeer, State.post, h]
  rfl

theorem State.fallen_posted (s : State) (n : StationNo) : Posted s.port (s.fallen n) :=
  State.postPeer_posted (State.modRoster_posted _ |>.mpr (Posted.refl s)) n

/-! ## The partner falls ABSENT -/

/-- The partner's entry ABSENT, and its fitness record cleared (R180): the station as the takeover test finds it. -/
def State.bereft (s : State) (n : StationNo) : State := (s.fallen n).modPair fun q => { q with fitness := [] }

theorem State.fallen_partnerLost (s : State) (n : StationNo) : (s.fallen n).partnerLost = (s.bereft n).takeoverTest := rfl

theorem State.bereft_same (s : State) (n : StationNo) : SameBut [.roster, .pair, .port] s (s.bereft n) := by
  simp [State.bereft, State.fallen]

theorem State.bereft_config (s : State) (n : StationNo) : (s.bereft n).config = s.config := rfl
theorem State.bereft_now (s : State) (n : StationNo) : (s.bereft n).now = s.now := rfl
theorem State.bereft_pair (s : State) (n : StationNo) : (s.bereft n).pair = { s.pair with fitness := [] } := rfl

theorem State.bereft_port (s : State) (n : StationNo) :
    (s.bereft n).port = s.port.post (.peer n false s.now (s.peer n).contents) := State.fallen_port s n

theorem State.bereft_posted (s : State) (n : StationNo) : Posted s.port (s.bereft n) := s.fallen_posted n

section
variable (hn : s.config.partner = some n)
include hn

theorem State.bereft_partnerEntry : (s.bereft n).partnerEntry = some { s.peer n with present := false } := by
  rw [State.partnerEntry, State.bereft_config, hn]
  exact congrArg some (s.fallen_peer n)

theorem State.bereft_partnerPresent : (s.bereft n).partnerPresent = false := by
  rw [State.partnerPresent, State.bereft_partnerEntry hn]

theorem State.bereft_partnerContents : (s.bereft n).partnerContents = (s.peer n).contents := by
  rw [State.partnerContents, State.bereft_partnerEntry hn]

/-- The done-through frame of the partner is the one last heard, though it has fallen silent (R155, R187). -/
theorem State.bereft_partnerDone : (s.bereft n).partnerDone = s.partnerDone := by
  have h : s.partnerContents = (s.peer n).contents := by
    rw [State.partnerContents, State.partnerEntry, hn, Option.map_some]
  rw [State.partnerDone, State.partnerDone, State.bereft_partnerContents hn, h]

/-- With the partner ABSENT the first cause of all holds (R181). -/
theorem State.bereft_takeoverTest (hr : s.run = .run) (hp : s.config.pairMode ≠ .none) (hs : s.pair.role = .standby)
    (hj : s.sync.step ≠ .joining) : (s.bereft n).takeoverTest =
      if s.fit then (s.bereft n).becomeActive .partnerAbsent else (s.bereft n).block .partnerAbsent :=
  State.takeoverTest_cause (s := s.bereft n) hr hp hs hj (by
    rw [State.takeoverCause, State.bereft_partnerPresent hn]
    rfl)

/-- A fit STANDBY member takes over, the changeover line with it (R181, R110). -/
theorem State.bereft_takesOver (hr : s.run = .run) (hs : s.pair.role = .standby)
    (ht : SameBut [.out] ((s.bereft n).becomeActive .partnerAbsent) t) :
    t.pair.role = .active ∧ t.pair.blocked = false ∧ t.changeoverPin = true ∧
      Announced s t (.role .active .standby .partnerAbsent s.now (some n) false s.partnerDone) := by
  have pair : t.pair = _ := (ht .pair (by decide)).trans (State.becomeActive_pair _)
  have run : t.run = s.run := by
    have h : SameBut [.store, .sched, .out, .pair, .port] (s.bereft n) ((s.bereft n).becomeActive .partnerAbsent) := by simp
    exact (ht .run (by decide)).trans (h .run (by decide))
  have told := (Posted.step ht (by decide)).mpr (State.becomeActive_tells (s.bereft n) .partnerAbsent)
  rw [State.bereft_pair, hs, State.bereft_now, State.bereft_config, hn, State.bereft_partnerPresent hn,
    State.bereft_partnerDone hn] at told
  exact ⟨by rw [pair], by rw [pair], by simp [State.changeoverPin, State.shows, State.isRun, run, hr, pair],
    (s.bereft_posted n).announced told⟩

/-- One that is not fit is blocked, which it says once (R182). -/
theorem State.bereft_blocked (hs : s.pair.role = .standby)
    (ht : SameBut [.out] ((s.bereft n).block .partnerAbsent) t) :
    BlockedBy s t (s.port.post (.peer n false s.now (s.peer n).contents)) .partnerAbsent false
      ((s.peer n).contents.map (·.role)) := by
  have pair : t.pair = _ := (ht .pair (by decide)).trans (State.block_pair _)
  have port : t.port = _ := (ht .port (by decide)).trans (State.block_port _)
  rw [State.bereft_partnerPresent hn, State.bereft_partnerContents hn, State.bereft_port] at port
  exact ⟨by rw [pair]; exact hs, by rw [pair], port⟩

end

/-- Settles O20: the entry falls, PEER is posted, and of the partner the takeover test follows. -/
theorem peerFallsAbsent : Obligations.PeerFallsAbsent := by
  intro s n hr hp hq told
  have expires := State.peerExpire_falls (s := s) hp hq
  have ho : SameBut [.out] (s.peerExpire n) (s.peerExpire n).followLights := by simp
  have hs : SameBut [.roster, .store, .sched, .out, .pair, .port] s (s.peerExpire n).followLights := by simp
  have after : SameBut [.store, .sched, .out, .pair, .port] (s.fallen n) (s.peerExpire n).followLights := by
    rw [expires]; simp
  have roster := State.peer_of_roster (after .roster (by decide))
  refine ⟨_, State.inRun_done hr _, (roster n).trans (s.fallen_peer n),
    fun m hm => (roster m).trans (Roster.setPeer_other _ hm _), hs .live (by decide), hs .tb (by decide), hs .line (by decide),
    hs .sync (by decide), ?posted, fun hn => ?peer, fun hn => ?partner⟩
  case posted =>
    show Posted (s.port.post _) _
    rw [State.followLights_posted, expires, ← State.fallen_port]
    split
    · exact State.takeoverTest_posted (Posted.refl (s.fallen n))
    · exact Posted.refl _
  case peer =>
    rw [expires, if_neg hn]
    exact (State.followLights_same (by simp)).mpr ((s.fallen_same n).mono (by simp))
  case partner =>
    rw [if_pos hn, State.fallen_partnerLost] at expires
    rw [expires] at ho ⊢
    refine ⟨?fitness, fun hm hs hj => ?test, fun h => ?idle⟩
    case fitness => rw [ho .pair (by decide), State.takeoverTest_fitness, State.bereft_pair]
    case test =>
      rw [State.bereft_takeoverTest hn hr hm hs hj] at ho ⊢
      refine ⟨fun hf => ?_, fun hf => ?_⟩
      · rw [hf, if_pos rfl] at ho ⊢
        exact State.bereft_takesOver hn hr hs ho
      · rw [hf, if_neg Bool.false_ne_true] at ho ⊢
        exact State.bereft_blocked hn hs ho
    case idle =>
      rw [State.takeoverTest_idle (s := s.bereft n) h] at ho ⊢
      exact ⟨((s.bereft_same n).mono (by simp)).trans (ho.mono (by simp)), (ho .port (by decide)).trans (s.bereft_port n),
        ho .pair (by decide)⟩

end Sys2Proof.Machine
end

section
/-! PROOFS. Founding, asking, asking again and refounding (O21). -/

namespace Sys2Proof.Machine

variable {s : State}

/-! ## Coming into step -/

/-- What a command that brings the station into step leaves alone, and what it posts first (R177, log 9). -/
theorem State.enterInStep_enters (s : State) (c : StepCause) {u : State} (h : u = (s.enterInStep c).followLights) :
    u.sync.step = .inStep ∧ Agree .live s u ∧ Agree .tb s u ∧ Agree .roster s u ∧
      Posted (s.port.post (.step .inStep s.sync.step c s.store.summary)) u := by
  subst h
  have hs : SameBut [.store, .apply, .sched, .out, .line, .sync, .pair, .port] s (s.enterInStep c).followLights := by simp
  refine ⟨?_, hs .live (by decide), hs .tb (by decide), hs .roster (by decide),
    State.followLights_posted.mpr (s.enterInStep_tells c)⟩
  rw [State.followLights_sync, (s.enterInStep_comes c).step]

theorem State.found_enters (hj : s.sync.step = .joining) (hl : 30 ≤ s.sync.joinCount) :
    s.found = s.enterInStep .founded := if_pos ⟨hj, hl⟩

/-! ## Offering an ASK -/

theorem Line.choose_queue (l : Line) (free : Nat) (c : TxClass) : (l.choose free).queue c = l.queue c := by
  unfold Line.choose
  repeat' split
  all_goals cases c <;> rfl

/-- A message offered stands last in the queue of its class (R130). -/
theorem State.enqueue_queue (s : State) (m : OutMsg) :
    (s.enqueue m).line.queue m.cls = s.line.queue m.cls ++ [⟨m, 0, false⟩] :=
  (Line.choose_queue _ _ _).trans ((Line.queue_setQueue _ _ _ _).trans (if_pos rfl))

theorem State.canOffer_ask (hr : s.run = .run) (hm : s.line.muted = false) (hl : s.line.routine.length < 8) :
    s.canOffer .ask = true := by
  simp [State.canOffer, State.isRun, hr, hm, OutMsg.cls, Line.queue, TxClass.places, hl]

/-- A station that is not fit takes nothing over: the test moves the blocked mark at most (R181, R182). -/
theorem State.takeoverTest_unfit (h : s.fit = false) : SameBut [.pair, .port] s s.takeoverTest := by
  obtain e | ⟨c, hf, -⟩ | ⟨c, -, e⟩ | e := s.takeoverTest_cases
  · rw [e]; simp
  · rw [h] at hf; cases hf
  · rw [e]; simp
  · rw [e]; simp

/-- The station asks, and is CATCHING_UP, before its pair monitor is told (R163). -/
def State.asking (s : State) : State :=
  ((s.enqueue .ask).setStep .catchingUp .asked).modSync fun y => { y.clearCatchUp with ask := .queued, askRetry := 0 }

theorem State.askFirst_asks (ho : s.sync.step = .outOfStep) (hw : s.askLimit ≤ s.sync.askWait)
    (hc : s.canOffer .ask = true) : s.askFirst = s.asking.fitnessChanged := if_pos ⟨ho, hw, hc⟩

theorem State.asking_posted (s : State) :
    Posted (s.port.post (.step .catchingUp s.sync.step .asked s.store.summary)) s.asking :=
  Posted.refl ((s.enqueue .ask).setStep .catchingUp .asked)

theorem State.asking_unfit (s : State) : s.asking.fit = false := by
  have h : s.asking.sync.step = .catchingUp := rfl
  simp [State.fit, h]

/-! ## Asking again, or refounding -/

/-- No peer is in step, and the order of R157 would choose this station (R164). -/
def State.refounds (s : State) : Prop :=
  (∀ n, s.peerInStep n = false) ∧ ∃ x, s.wouldBeChosen = some x ∧ x.1 = s.straps.number

section
variable (hs : s.sync.step = .catchingUp) (hp : s.sync.phase = .awaiting) (ha : s.sync.ask = .out)
  (hl : 20 ≤ s.sync.askRetry)
include hs hp ha hl

theorem State.retryDue : (s.awaitingOut && decide (retryLimit ≤ s.sync.askRetry)) = true := by
  simp [State.awaitingOut, Sync.awaiting, retryLimit, hs, hp, ha, hl]

theorem State.askRetryExpire_refounds (h : s.refounds) : s.askRetryExpire =
    (s.modSync fun y => { y with ask := .none, askRetry := 0 }).enterInStep .refounded := by
  obtain ⟨hn, ⟨k, r⟩, hw, hk⟩ := h
  obtain rfl : k = s.straps.number := hk
  simp [State.askRetryExpire, State.retryDue hs hp ha hl, hn, hw]

theorem State.askRetryExpire_asks (h : ¬ s.refounds) : s.askRetryExpire = s.askAgain := by
  simp only [State.askRetryExpire, State.retryDue hs hp ha hl, if_true]
  refine if_neg fun hb => h ?_
  obtain ⟨hi, hw⟩ := Bool.and_eq_true_iff.mp hb
  refine ⟨fun n => ?_, ?_⟩
  · have hi : ∀ n, s.peerInStep n = false := by simpa [stations] using hi
    exact hi n
  · split at hw
    · next n r he => exact ⟨(n, r), he, of_decide_eq_true hw⟩
    · cases hw

end

theorem State.askAgain_offers (hc : s.canOffer .ask = true) :
    s.askAgain = (s.enqueue .ask).modSync fun y => { y with ask := .queued } := if_pos hc

/-- Settles O21: each limit by what its command does there. -/
theorem joiningAndAsking : Obligations.JoiningAndAsking := by
  intro s hr
  refine ⟨fun hj hl => ?founded, fun ho hw hm hq => ?asked, fun hs hp ha hl hn hm hq => ?again,
    fun hs hp ha hl hn hx => ?refounded⟩
  case founded =>
    have e := s.enterInStep_enters .founded rfl
    rw [← State.found_enters hj hl, hj] at e
    exact ⟨_, State.inRun_done hr _, e⟩
  case asked =>
    have e := State.askFirst_asks ho hw (State.canOffer_ask hr hm hq)
    have hs : SameBut [.pair, .port, .out] s.asking s.askFirst.followLights := by
      rw [e, State.followLights_same (by simp)]
      exact (State.takeoverTest_unfit s.asking_unfit).mono (by simp)
    have sync : s.askFirst.followLights.sync = s.asking.sync := hs .sync (by decide)
    refine ⟨_, State.inRun_done hr _, by rw [sync]; rfl, by rw [sync]; rfl, by rw [sync]; rfl, ?_, ?_, ?_⟩
    · exact (congrArg Line.routine (hs .line (by decide))).trans (s.enqueue_queue .ask)
    · rw [State.followLights_posted, e, ← ho]
      exact State.fitnessChanged_posted s.asking_posted
    · refine SameBut.trans ?_ (hs.mono (by simp))
      simp [State.asking]
  case again =>
    have hf : ¬ s.refounds := by
      rintro ⟨hi, x, hw, hk⟩
      rcases hn with ⟨n, hn⟩ | hn
      · rw [hi n] at hn; cases hn
      · exact hn x hw hk
    have e := (State.askRetryExpire_asks hs hp ha hl hf).trans (State.askAgain_offers (State.canOffer_ask hr hm hq))
    refine ⟨_, State.inRun_done hr _, ?_, ?_, ?_⟩
    · rw [State.followLights_sync, e]; rfl
    · rw [State.followLights_line, e]; exact s.enqueue_queue .ask
    · rw [e]; simp
  case refounded =>
    have e := State.enterInStep_enters (s.modSync fun y => { y with ask := .none, askRetry := 0 }) .refounded rfl
    rw [← State.askRetryExpire_refounds hs hp ha hl ⟨hn, hx⟩] at e
    obtain ⟨step, live, -, -, posted⟩ := e
    rw [State.modSync_sync, hs] at posted
    exact ⟨_, State.inRun_done hr _, step, live, posted⟩

end Sys2Proof.Machine
end

section
/-! PROOFS. A PRESENCE heard (O28). -/

namespace Sys2Proof.Machine

variable {s : State} {n : StationNo} {c : Presence}

/-! ## The reference (R157) -/

theorem bestSummary_of_mem {a : StationNo × Summary} {l : List (StationNo × Summary)} (h : a ∈ l) :
    ∃ x, bestSummary l = some x := by
  cases l with
  | nil => cases h
  | cons b r =>
    unfold bestSummary
    split
    · exact ⟨_, rfl⟩
    · split <;> exact ⟨_, rfl⟩

/-- A present peer in step is a candidate, and so there is a reference. -/
theorem State.reference_of_inStep (hn : n ≠ s.straps.number) (hc : s.presentPeer n = some c) (hs : c.step = .inStep) :
    ∃ m r, s.reference = some (m, r) := by
  have hm : (n, c.summary) ∈ s.candidates :=
    List.mem_filterMap.mpr ⟨n, List.mem_finRange n, by simp [hn, hc, hs]⟩
  obtain ⟨x, hx⟩ := bestSummary_of_mem hm
  exact ⟨x.1, x.2, hx⟩

/-! ## The entry taken -/

/-- The entry of station `n` with the contents heard (R154). -/
def State.entered (s : State) (n : StationNo) (c : Presence) : State :=
  s.modRoster (·.setPeer n ⟨true, some c, some s.now, 0⟩)

/-- The entry taken, and PEER posted where it was not PRESENT (R154). -/
def State.taken (s : State) (n : StationNo) (c : Presence) : State :=
  if (s.peer n).present then s.entered n c else (s.entered n c).postPeer n

theorem State.entered_peer (s : State) (n : StationNo) (c : Presence) :
    (s.entered n c).peer n = ⟨true, some c, some s.now, 0⟩ :=
  Roster.setPeer_same _ _ _

theorem State.entered_presentPeer (hn : n ≠ s.straps.number) : (s.entered n c).presentPeer n = some c := by
  rw [State.presentPeer, State.entered_peer]
  exact if_pos ⟨hn, rfl⟩

/-- The entry as the PRESENCE leaves it, and the notice of it (R154). -/
theorem State.taken_same (s : State) (n : StationNo) (c : Presence) : SameBut [.port] (s.entered n c) (s.taken n c) := by
  simp [State.taken]

theorem State.taken_posted (s : State) (n : StationNo) (c : Presence) : Posted s.port (s.taken n c) := by
  unfold State.taken
  split
  · exact Posted.refl s
  · exact State.postPeer_posted (t := s.entered n c) (Posted.refl s) n

theorem State.taken_port (h : (s.peer n).present = false) :
    (s.taken n c).port = s.port.post (.peer n true s.now (some c)) := by
  have e : s.taken n c = (s.entered n c).postPeer n := if_neg (by simp [h])
  rw [e, State.postPeer, State.entered_peer]
  rfl

/-- The notice apart, nothing the reference rests on has moved. -/
theorem State.taken_reference (s : State) (n : StationNo) (c : Presence) :
    (s.taken n c).reference = (s.entered n c).reference := by
  unfold State.taken
  split <;> rfl

theorem State.presenceHeard_bad {p : List Byte} (h : readPresence p = none) : s.presenceHeard n p = s := by
  simp [State.presenceHeard, h]

/-- The sync engine is told first, then of the partner the pair monitor (R154, log 9). -/
theorem State.presenceHeard_good {p : List Byte} (h : readPresence p = some c) : s.presenceHeard n p =
    if ((s.taken n c).syncHeard c).config.partner = some n then ((s.taken n c).syncHeard c).partnerHeard c
    else (s.taken n c).syncHeard c := by
  simp only [State.presenceHeard, h]
  rfl

/-! ## What the blocks make of it -/

/-- What the PRESENCE brings beside its entry: the roster and the timebase stay, and what is posted stays posted. -/
theorem State.presenceHeard_after {p : List Byte} (h : readPresence p = some c) :
    SameBut [.store, .apply, .sched, .out, .line, .sync, .pair, .port] (s.taken n c) (s.presenceHeard n p) := by
  rw [State.presenceHeard_good h]
  simp

theorem State.presenceHeard_sync {p : List Byte} (h : readPresence p = some c) :
    (s.presenceHeard n p).sync = ((s.taken n c).syncHeard c).sync := by
  have hs : SameBut [.store, .sched, .out, .pair, .port] ((s.taken n c).syncHeard c) (s.presenceHeard n p) := by
    rw [State.presenceHeard_good h]
    simp
  exact hs .sync (by decide)

theorem State.presenceHeard_posted {p : List Byte} {q : Port} (h : readPresence p = some c)
    (hq : Posted q ((s.taken n c).syncHeard c)) : Posted q (s.presenceHeard n p) := by
  rw [State.presenceHeard_good h]
  split
  · exact State.partnerHeard_posted hq c
  · exact hq

/-- A joining station whose contents match the reference is in step (R151). -/
theorem State.syncHeard_match {m : StationNo} (hj : s.sync.step = .joining) (hc : c.step = .inStep)
    (hr : s.reference = some (m, s.store.summary)) : s.syncHeard c = s.enterInStep (.joinMatch m s.store.summary) := by
  simp [State.syncHeard, hj, hc, hr]

/-- One whose contents do not is OUT_OF_STEP (R151). -/
theorem State.syncHeard_mismatch {m : StationNo} {r : Summary} (hj : s.sync.step = .joining) (hc : c.step = .inStep)
    (hr : s.reference = some (m, r)) (hn : r ≠ s.store.summary) : s.syncHeard c =
      ((s.setStep .outOfStep (.joinMismatch m r)).modSync fun y => { y with askWait := 0, ask := .none }).fitnessChanged := by
  simp [State.syncHeard, hj, hc, hr, hn]

theorem State.fitnessChanged_sync (s : State) : s.fitnessChanged.sync = s.sync :=
  (by simp : SameBut [.store, .sched, .out, .pair, .port] s s.fitnessChanged) .sync (by decide)

/-- The step state and the STEP notice of a joining station that hears one in step (R151, R177). -/
theorem State.syncHeard_joins {m : StationNo} {r : Summary} (hj : s.sync.step = .joining) (hc : c.step = .inStep)
    (hr : s.reference = some (m, r)) :
    (r = s.store.summary → (s.syncHeard c).sync.step = .inStep ∧
      Posted (s.port.post (.step .inStep .joining (.joinMatch m r) s.store.summary)) (s.syncHeard c)) ∧
    (r ≠ s.store.summary → (s.syncHeard c).sync.step = .outOfStep ∧
      Posted (s.port.post (.step .outOfStep .joining (.joinMismatch m r) s.store.summary)) (s.syncHeard c)) := by
  refine ⟨fun he => ?_, fun hn => ?_⟩
  · subst he
    rw [State.syncHeard_match hj hc hr, ← hj]
    exact ⟨(s.enterInStep_comes _).step, s.enterInStep_tells _⟩
  · rw [State.syncHeard_mismatch hj hc hr hn, State.fitnessChanged_sync, ← hj]
    exact ⟨rfl, State.fitnessChanged_posted (Posted.refl (s.setStep .outOfStep (.joinMismatch m r)))⟩

/-- A joining station that takes the entry of one in step leaves JOINING, matched against the reference with that entry in it. -/
theorem State.taken_joins (hj : s.sync.step = .joining) (hc : c.step = .inStep) (hn : n ≠ s.straps.number) :
    ∃ m r, (s.entered n c).reference = some (m, r) ∧
      (r = s.store.summary → ((s.taken n c).syncHeard c).sync.step = .inStep ∧
        Announced s ((s.taken n c).syncHeard c) (.step .inStep .joining (.joinMatch m r) s.store.summary)) ∧
      (r ≠ s.store.summary → ((s.taken n c).syncHeard c).sync.step = .outOfStep ∧
        Announced s ((s.taken n c).syncHeard c) (.step .outOfStep .joining (.joinMismatch m r) s.store.summary)) := by
  obtain ⟨m, r, hr⟩ := State.reference_of_inStep (s := s.entered n c) hn (State.entered_presentPeer hn) hc
  have sync : (s.taken n c).sync = s.sync := s.taken_same n c .sync (by decide)
  have store : (s.taken n c).store = s.store := s.taken_same n c .store (by decide)
  obtain ⟨agrees, differs⟩ := State.syncHeard_joins ((congrArg Sync.step sync).trans hj) hc
    ((s.taken_reference n c).trans hr)
  rw [store] at agrees differs
  have told := s.taken_posted n c
  exact ⟨m, r, hr, fun he => ⟨(agrees he).1, told.announced (agrees he).2⟩,
    fun hne => ⟨(differs hne).1, told.announced (differs hne).2⟩⟩

/-! ## RECEIVE_PRESENCE -/

theorem execReceivePresence_heard (dt : Nat) {rx : Reception} {b : Byte} {p : List Byte} (h : s.hears rx n b (.presence p)) :
    exec (.receivePresence dt rx) s = .next ((s.elapse dt).rxOver.presenceHeard n p).followLights := by
  have hr := State.receive_heard dt (act := fun n _ m => match m with
    | .presence p => some (State.unlessOwn n (·.presenceHeard n p))
    | _ => none) h rfl
  exact congrArg State.done (hr.trans (if_neg h.2.2))

/-- Settles O28: the entry is taken first, and then the sync engine and the pair monitor are told. -/
theorem presenceTaken : Obligations.PresenceTaken := by
  intro s dt rx n b p hears
  refine ⟨fun hp => ?bad, fun c hp => ?good⟩
  case bad =>
    refine ⟨_, execReceivePresence_heard dt hears, ?_⟩
    rw [State.presenceHeard_bad hp]
    simp
  case good =>
    have after := State.presenceHeard_after (s := (s.elapse dt).rxOver) (n := n) hp
    have lights : SameBut [.out] ((s.elapse dt).rxOver.presenceHeard n p) _ := (State.followLights_same (by simp)).mpr .self
    have hs : SameBut [.clock, .line, .roster, .store, .apply, .sched, .out, .sync, .pair, .port] s
        ((s.elapse dt).rxOver.presenceHeard n p).followLights := by simp
    have roster := (lights .roster (by decide)).trans
      ((after .roster (by decide)).trans (State.taken_same (s.elapse dt).rxOver n c .roster (by decide)))
    have peer := State.peer_of_roster roster
    have sync : ((s.elapse dt).rxOver.presenceHeard n p).followLights.sync = _ :=
      (lights .sync (by decide)).trans (State.presenceHeard_sync hp)
    have posted {q : Port} (hq : Posted q (((s.elapse dt).rxOver.taken n c).syncHeard c)) :
        Posted q ((s.elapse dt).rxOver.presenceHeard n p).followLights :=
      State.followLights_posted.mpr (State.presenceHeard_posted hp hq)
    refine ⟨_, execReceivePresence_heard dt hears, (peer n).trans (State.entered_peer _ n c),
      fun m hm => (peer m).trans (Roster.setPeer_other _ hm _), (congrArg Roster.lastSent roster).trans rfl,
      hs .live (by decide), hs .tb (by decide), fun habs => ?peerNotice, fun hj hc => ?joins⟩
    case peerNotice =>
      have port : ((s.elapse dt).rxOver.taken n c).port = s.port.post (.peer n true s.now (some c)) := State.taken_port habs
      rw [← port]
      exact posted (State.syncHeard_posted (Posted.refl _) c)
    case joins =>
      obtain ⟨m, r, hr, agrees, differs⟩ := State.taken_joins (s := (s.elapse dt).rxOver) hj hc hears.2.2
      rw [sync]
      refine ⟨fun h => ?_, m, r, hr, fun he => ⟨(agrees he).1, (agrees he).2.later (posted (Posted.refl _))⟩,
        fun hne => ⟨(differs hne).1, (differs hne).2.later (posted (Posted.refl _))⟩⟩
      by_cases he : r = s.store.summary
      · rw [(agrees he).1] at h; cases h
      · rw [(differs he).1] at h; cases h

end Sys2Proof.Machine
end

section
/-! PROOFS. A catch-up abandoned, and the limits of a stream (O22). -/

namespace Sys2Proof.Machine

variable {s t u : State}

/-! ## Looking at the head again -/

/-- The sync engine's record without its responder side: the step state and the catch-up. -/
def Sync.catchUp (y : Sync) : Sync :=
  { y with responder := .idle, wait := none, nextPart := none, pendingAsk := false, askers := [] }

/-- What looking at the head of the apply queue may move besides: the catch-up stays, entries leave from the front alone, and
SHADOW comes into use for a copy alone (R19, R25). -/
structure State.PassesOver (s t : State) : Prop where
  catchUp : t.sync.catchUp = s.sync.catchUp
  queue : t.apply.queue <:+ s.apply.queue
  use : t.store.use = s.store.use ∨ t.store.use = .copying

theorem State.PassesOver.refl (s : State) : s.PassesOver s := ⟨rfl, List.suffix_refl _, .inl rfl⟩

theorem State.PassesOver.trans (h : s.PassesOver t) (k : t.PassesOver u) : s.PassesOver u where
  catchUp := k.catchUp.trans h.catchUp
  queue := k.queue.trans h.queue
  use := k.use.elim (fun e => h.use.imp e.trans e.trans) .inr

theorem Store.request_use_cases (st : Store) (op : StoreOp) : (st.request op).use = st.use ∨ (st.request op).use = .copying := by
  by_cases h : op = .freezeCopy
  · subst h
    unfold Store.request
    split
    · exact .inr rfl
    · exact .inl rfl
  · exact .inl (Store.request_use h)

theorem State.request_passesOver (op : StoreOp) : s.PassesOver (s.request op) :=
  ⟨rfl, List.suffix_refl _, Store.request_use_cases _ _⟩

theorem State.popQueue_passesOver : s.PassesOver s.popQueue := ⟨rfl, List.tail_suffix _, .inl rfl⟩

theorem State.streamEnd_passesOver : s.PassesOver s.streamEnd := by
  have same : SameBut [.sync] s s.streamEnd := by simp
  have hq : s.streamEnd.apply = s.apply := same .apply (by decide)
  have hu : s.streamEnd.store = s.store := same .store (by decide)
  refine ⟨?_, hq ▸ List.suffix_refl _, .inl (congrArg Store.use hu)⟩
  simp only [State.streamEnd, State.startRound]
  repeat' split
  all_goals rfl

theorem State.kickFor_passesOver (n : Nat) (s : State) : s.PassesOver (s.kickFor n) := by
  induction n generalizing s with
  | zero => exact .refl s
  | succ n ih =>
    unfold State.kickFor
    repeat' split
    · exact .refl s
    · exact .refl s
    · exact State.request_passesOver _
    · exact .refl s
    · exact State.request_passesOver _
    · exact (State.popQueue_passesOver.trans State.streamEnd_passesOver).trans (ih _)
    · exact State.popQueue_passesOver.trans (ih _)

/-- Out of step and with no stream FREEZING the look asks nothing of the store: void markers leave, and no more (R19, R25). -/
theorem State.kickFor_outOfStep (n : Nat) {s : State} (hs : s.sync.step ≠ .inStep) (hr : s.sync.responder ≠ .freezing) :
    SameBut [.apply, .line] s (s.kickFor n) := by
  induction n generalizing s with
  | zero => exact .self
  | succ n ih =>
    unfold State.kickFor
    split
    · exact .self
    · split
      · exact .self
      · rw [if_neg fun h => hs h.1]
        exact .self
      · rw [if_neg fun h => hr h.2]
        exact SameBut.trans (by simp) (ih (s := s.popQueue) hs hr)

/-! ## Discarding ordered messages (R26) -/

theorem State.discardOrdered_sync : s.discardOrdered.sync = s.sync :=
  (by simp : SameBut [.apply, .line, .store] s s.discardOrdered) .sync (by decide)

theorem State.discardOrdered_holding : s.discardOrdered.apply.holding = s.apply.holding := by
  simp only [State.discardOrdered]
  split <;> rfl

theorem State.discardOrdered_queue (h : s.store.holder ≠ some .apply) :
    s.discardOrdered.apply.queue = s.apply.queue.filter (!·.isOrdered) := by
  have ha : s.applying = false := decide_eq_false h
  simp only [State.discardOrdered, ha]
  split <;> rfl

/-! ## Abandoning -/

/-- The catch-up abandoned, before the head of the apply queue is looked at again and the pair monitor told (R175). -/
def State.abandoning (s : State) (r : AbandonReason) : State :=
  ((((s.setStep .outOfStep (.abandoned r s.sync.source s.sync.written s.sync.count)).modApply
      fun a => { a with holding := false }).discardOrdered).modStore
        fun st => (st.abandon .sync).emptyShadow).modSync fun y => { y.clearCatchUp with askWait := 0 }

theorem State.abandoning_sync (s : State) (r : AbandonReason) :
    (s.abandoning r).sync = { s.sync.clearCatchUp with step := .outOfStep, askWait := 0 } := by
  simp only [State.abandoning, State.modSync_sync, State.modStore_sync, State.discardOrdered_sync]
  rfl

theorem State.abandoning_holding (s : State) (r : AbandonReason) : (s.abandoning r).apply.holding = false :=
  State.discardOrdered_holding

theorem State.abandoning_shadow (s : State) (r : AbandonReason) :
    (s.abandoning r).store.shadow = .empty ∧ (s.abandoning r).store.use = .empty := ⟨rfl, rfl⟩

theorem State.abandoning_posted (s : State) (r : AbandonReason) :
    Posted (s.port.post (.step .outOfStep s.sync.step (.abandoned r s.sync.source s.sync.written s.sync.count)
      s.store.summary)) (s.abandoning r) :=
  State.discardOrdered_posted.mpr (Posted.refl (s.setStep .outOfStep _))

theorem State.fit_inStep (h : s.fit = true) : s.sync.step = .inStep := by
  simp only [State.fit, Bool.and_eq_true, decide_eq_true_eq] at h
  exact h.1.2

/-- A station out of step takes nothing over when its pair monitor is told (R179, R181). -/
theorem State.fitnessChanged_outOfStep (h : s.sync.step ≠ .inStep) : SameBut [.pair, .port] s s.fitnessChanged :=
  State.takeoverTest_unfit (Bool.eq_false_iff.mpr fun hf => h (State.fit_inStep hf))

/-- Once the head is looked at, only the pair monitor acts: the station is out of step, and so not fit. -/
theorem State.abandonCatchUp_kick (s : State) (r : AbandonReason) :
    SameBut [.pair, .port] (s.abandoning r).kick (s.abandonCatchUp r) := by
  refine State.fitnessChanged_outOfStep ?_
  rw [show (s.abandoning r).kick.sync.step = _ from (State.kickFor_looksOn _ _).step, State.abandoning_sync]
  simp

/-- The STEP notice comes first of what an abandoned catch-up brings (R175, R177, log 9). -/
theorem State.abandonCatchUp_tells (s : State) (r : AbandonReason) :
    Posted (s.port.post (.step .outOfStep s.sync.step (.abandoned r s.sync.source s.sync.written s.sync.count)
      s.store.summary)) (s.abandonCatchUp r) :=
  State.fitnessChanged_posted (State.kick_posted.mpr (s.abandoning_posted r))

/-- What a station has left of a catch-up abandoned (R175). -/
structure State.Abandoned (s t : State) (r : AbandonReason) : Prop where
  catchUp : t.sync.catchUp = { s.sync.clearCatchUp with step := .outOfStep, askWait := 0 : Sync }.catchUp
  shadow : t.store.shadow = .empty
  use : t.store.use = .empty ∨ t.store.use = .copying
  holding : t.apply.holding = false
  queue : s.store.holder ≠ some .apply → ∀ e ∈ t.apply.queue, e.isOrdered = false
  posted : Posted (s.port.post (.step .outOfStep s.sync.step (.abandoned r s.sync.source s.sync.written s.sync.count)
    s.store.summary)) t

theorem State.abandonCatchUp_abandons (s : State) (r : AbandonReason) : s.Abandoned (s.abandonCatchUp r) r := by
  have same := s.abandonCatchUp_kick r
  have sync : (s.abandonCatchUp r).sync = _ := same .sync (by decide)
  have store : (s.abandonCatchUp r).store = _ := same .store (by decide)
  have apply : (s.abandonCatchUp r).apply = _ := same .apply (by decide)
  have looks : (s.abandoning r).LooksOn (s.abandoning r).kick := State.kickFor_looksOn _ _
  have passes : (s.abandoning r).PassesOver (s.abandoning r).kick := State.kickFor_passesOver _ _
  refine ⟨?_, ?_, ?_, ?_, fun h e he => ?_, s.abandonCatchUp_tells r⟩
  · rw [sync, passes.catchUp, State.abandoning_sync]
  · rw [store, looks.shadow, (s.abandoning_shadow r).1]
  · rw [store]
    exact passes.use.imp_left (·.trans (s.abandoning_shadow r).2)
  · rw [apply, looks.holding, State.abandoning_holding]
  · rw [apply] at he
    have hq : (s.abandoning r).apply.queue = s.apply.queue.filter (!·.isOrdered) := State.discardOrdered_queue h
    have hm := passes.queue.subset he
    rw [hq] at hm
    simpa using (List.mem_filter.mp hm).2

section
variable {r : AbandonReason} (h : s.Abandoned t r)
include h

theorem State.Abandoned.step : t.sync.step = .outOfStep := congrArg Sync.step h.catchUp
theorem State.Abandoned.phase : t.sync.phase = .awaiting := congrArg Sync.phase h.catchUp
theorem State.Abandoned.source : t.sync.source = none := congrArg Sync.source h.catchUp
theorem State.Abandoned.buffer : t.sync.buffer = [] := congrArg Sync.buffer h.catchUp
theorem State.Abandoned.askWait : t.sync.askWait = 0 := congrArg Sync.askWait h.catchUp

theorem State.Abandoned.notAssembling : t.store.use ≠ .assembling := by
  rcases h.use with e | e <;> simp [e]

theorem State.Abandoned.followLights : s.Abandoned t.followLights r where
  catchUp := by rw [State.followLights_sync, h.catchUp]
  shadow := by rw [State.followLights_store, h.shadow]
  use := by rw [State.followLights_store]; exact h.use
  holding := by rw [State.followLights_apply, h.holding]
  queue := by rw [State.followLights_apply]; exact h.queue
  posted := State.followLights_posted.mpr h.posted

end

/-! ## The limits -/

theorem State.canOffer_opening (hr : s.run = .run) (hm : s.line.muted = false) (hl : s.line.bulk.length < 2) :
    s.canOffer (.part 0 []) = true := by
  simp [State.canOffer, State.isRun, hr, hm, OutMsg.cls, Line.queue, TxClass.places, hl]

theorem execResponseWaitExpires_run (hr : s.run = .run) : exec .responseWaitExpires s = .next s.responseExpire :=
  congrArg Host.Outcome.next (State.inRun_run hr 0 State.responseExpire)

theorem State.responseExpire_offers (hw : s.sync.responder = .waiting) (hz : s.sync.wait = some 0)
    (hc : s.canOffer (.part 0 []) = true) : s.responseExpire =
      (s.enqueue (.part 0 [])).modSync fun y => { y with responder := .opening, wait := none } :=
  (if_pos ⟨hw, hz⟩).trans (if_pos hc)

theorem State.gapExpire_abandons (hs : s.sync.step = .catchingUp) (hp : s.sync.phase = .receiving) (hg : 11 ≤ s.sync.gap) :
    s.gapExpire = s.abandonCatchUp .gapTimeout := if_pos ⟨hs, hp, hg⟩

/-- Settles O22: each limit by what its command does there. -/
theorem streamTimers : Obligations.StreamTimers := by
  intro s hr
  refine ⟨fun hw hz hm hq => ?response, fun hs hp hg => ?gap⟩
  case response =>
    refine ⟨_, (execResponseWaitExpires_run hr).trans (congrArg _ (State.responseExpire_offers hw hz (State.canOffer_opening hr hm hq))),
      rfl, s.enqueue_queue (.part 0 []), ?_⟩
    simp
  case gap =>
    have left := (s.abandonCatchUp_abandons .gapTimeout).followLights
    rw [← State.gapExpire_abandons hs hp hg] at left
    have same : SameBut [.store, .apply, .sched, .out, .line, .sync, .pair, .port] s s.gapExpire.followLights := by simp
    have posted := left.posted
    rw [hs] at posted
    exact ⟨_, State.inRun_done hr _, left.step, left.phase, left.source, left.buffer, left.askWait, left.shadow,
      left.notAssembling, left.holding, left.queue, same .live (by decide), posted⟩

end Sys2Proof.Machine
end

section
/-! PROOFS. An ASK and a part 0 heard (O31). -/

namespace Sys2Proof.Machine

variable {s t : State} {n : StationNo}

/-! ## An ASK -/

theorem execReceiveAsk_heard (dt : Nat) {rx : Reception} {b : Byte} (h : s.hears rx n b .ask) :
    exec (.receiveAsk dt rx) s = .next ((s.elapse dt).rxOver.askHeard n).followLights :=
  congrArg State.done (State.receive_heard dt (f := (·.askHeard n)) h rfl)

theorem State.askHeard_ignored (h : s.sync.step ≠ .inStep ∨ s.sync.responder = .waiting ∨ s.sync.responder = .opening ∨
    s.sync.responder = .idle ∧ (s.line.muted = true ∨ s.passesTest = false)) : s.askHeard n = s := by
  unfold State.askHeard
  split
  · rfl
  · next hs =>
    have hs : s.sync.step = .inStep := Decidable.not_not.mp hs
    rcases h with h | h | h | ⟨h, hm⟩
    · exact absurd hs h
    · simp [h]
    · simp [h]
    · simp only [h]
      refine if_neg ?_
      rintro ⟨-, -, hu, hp⟩
      rcases hm with hm | hm
      · rw [hu] at hm; cases hm
      · rw [hp] at hm; cases hm

/-- The round starts with the wait of the station's rank (R158, R165). -/
theorem State.askHeard_starts (hs : s.sync.step = .inStep) (hi : s.sync.responder = .idle) (hm : s.line.muted = false)
    (hp : s.passesTest = true) :
    s.askHeard n = s.modSync fun y => { y with responder := .waiting, wait := some (2 + 3 * s.rank) } := by
  simp [State.askHeard, State.startRound, responseWait, hs, hi, hm, hp]

/-- While a stream goes out the asker is kept for its end (R165, R169). -/
theorem State.askHeard_kept (hs : s.sync.step = .inStep) (hr : s.sync.responder = .freezing ∨ s.sync.responder = .sending) :
    (s.askHeard n).sync.pendingAsk = true ∧ n ∈ (s.askHeard n).sync.askers := by
  have e : s.askHeard n = s.modSync fun y => { y with
      pendingAsk := true, askers := if y.askers.contains n then y.askers else y.askers ++ [n] } := by
    rcases hr with h | h <;> simp [State.askHeard, hs, h]
  rw [e]
  refine ⟨rfl, ?_⟩
  rw [State.modSync_sync]
  dsimp only
  split
  · next h => simpa using h
  · simp

/-! ## A part 0 in step: the response round -/

theorem State.cancelRound_waiting (h : s.sync.responder = .waiting) :
    s.cancelRound = s.modSync fun y => { y with responder := .idle, wait := none } := by
  simp [State.cancelRound, h]

theorem State.cancelRound_opening (h : s.sync.responder = .opening) (ht : s.line.transmitting = false) :
    s.cancelRound = (s.withdraw OutMsg.isPart).modSync fun y => { y with responder := .idle } := by
  simp [State.cancelRound, h, ht]

theorem State.cancelRound_streaming (h : s.sync.responder ∈ [.idle, .freezing, .sending]) : s.cancelRound = s := by
  simp only [List.mem_cons, List.not_mem_nil, or_false] at h
  rcases h with h | h | h <;> simp [State.cancelRound, h]

/-- From a class that does not transmit all messages withdrawn leave (R137). -/
theorem withdrawFrom_silent (p : OutMsg → Bool) (q : List TxMsg) : withdrawFrom false p q = q.filter fun m => !p m.msg := by
  cases q with
  | nil => rfl
  | cons m q => cases h : p m.msg <;> simp [withdrawFrom, h]

/-- A withdrawal while the station is silent (R137): the queue without its messages, and with the message in flight its back-off. -/
theorem State.withdraw_bulk (h : s.line.transmitting = false) (p : OutMsg → Bool) :
    (s.withdraw p).line.bulk = s.line.bulk.filter fun m => !p m.msg :=
  (Line.choose_queue _ _ .bulk).trans (by
    simp only [State.modLine_line, Line.queue, Line.withdraw, Line.sendsFrom, h, Bool.false_and, withdrawFrom_silent])

theorem Line.choose_backoff (l : Line) (free : Nat) : (l.choose free).backoff = l.backoff := by
  unfold Line.choose
  repeat' split
  all_goals rfl

theorem State.withdraw_backoff (h : s.line.transmitting = false) {p : OutMsg → Bool} {m : TxMsg}
    (hm : s.line.inFlight = some m) (hp : p m.msg = true) : (s.withdraw p).line.backoff = none :=
  (Line.choose_backoff _ _).trans (by simp [Line.withdraw, h, hm, hp])

/-! ## A stream opened (R171) -/

/-- The station may take an opening: it is out of step, or awaits one (R171). -/
def State.mayOpen (s : State) : Prop := s.sync.step = .outOfStep ∨ s.sync.step = .catchingUp ∧ s.sync.phase = .awaiting

/-- The stream of station `n` taken, before the pair monitor is told (R171). -/
def State.opening (s : State) (n : StationNo) : State :=
  (((if s.sync.step = .outOfStep then s.setStep .catchingUp (.stream n) else s).modSync fun y => { y.clearCatchUp with
    phase := .receiving, source := some n, expected := 1, askWait := 0 }).modStore fun st =>
      { st with shadow := .empty, use := .assembling }).modApply fun a => { a with holding := true }

theorem State.takeOpening_opens (hm : s.mayOpen) (hu : s.store.use = .empty) :
    s.takeOpening n = if s.sync.step = .outOfStep then (s.opening n).fitnessChanged else s.opening n :=
  if_pos ⟨hm, hu⟩

theorem State.takeOpening_refuses (hu : s.store.use ≠ .empty) : s.takeOpening n = s := if_neg fun h => hu h.2

/-- What a station that takes an opening has of the stream (R171). -/
structure State.Opened (t : State) (n : StationNo) : Prop where
  step : t.sync.step = .catchingUp
  phase : t.sync.phase = .receiving
  source : t.sync.source = some n
  expected : t.sync.expected = 1
  written : t.sync.written = 0
  count : t.sync.count = none
  buffer : t.sync.buffer = []
  shadow : t.store.shadow = .empty
  use : t.store.use = .assembling
  holding : t.apply.holding = true

theorem State.opening_opened (hm : s.mayOpen) : (s.opening n).Opened n := by
  have step : (s.opening n).sync.step = .catchingUp := by
    by_cases h : s.sync.step = .outOfStep
    · rw [State.opening, if_pos h]
      rfl
    · rw [State.opening, if_neg h]
      exact (hm.resolve_left h).1
  exact ⟨step, rfl, rfl, rfl, rfl, rfl, rfl, rfl, rfl, rfl⟩

theorem State.Opened.of_same (h : s.Opened n) (k : SameBut [.out, .pair, .port] s t) : t.Opened n := by
  have sync : t.sync = s.sync := k .sync (by decide)
  have store : t.store = s.store := k .store (by decide)
  have apply : t.apply = s.apply := k .apply (by decide)
  exact {
    step := by rw [sync, h.step]
    phase := by rw [sync, h.phase]
    source := by rw [sync, h.source]
    expected := by rw [sync, h.expected]
    written := by rw [sync, h.written]
    count := by rw [sync, h.count]
    buffer := by rw [sync, h.buffer]
    shadow := by rw [store, h.shadow]
    use := by rw [store, h.use]
    holding := by rw [apply, h.holding] }

/-- Receiving a stream the station is not in step, and its pair monitor takes nothing over. -/
theorem State.takeOpening_opened (hm : s.mayOpen) (hu : s.store.use = .empty) : (s.takeOpening n).followLights.Opened n := by
  have opened := State.opening_opened (n := n) hm
  have told : SameBut [.pair, .port] (s.opening n) (s.opening n).fitnessChanged :=
    State.fitnessChanged_outOfStep (by simp [opened.step])
  refine opened.of_same ((State.followLights_same (by simp)).mpr ?_)
  rw [State.takeOpening_opens hm hu]
  exact (told.mono (by simp)).ite .self

/-- The STEP notice of a station that comes to catch up by an opening (R171, R177). -/
theorem State.takeOpening_tells (hs : s.sync.step = .outOfStep) (hu : s.store.use = .empty) :
    Posted (s.port.post (.step .catchingUp .outOfStep (.stream n) s.store.summary)) (s.takeOpening n) := by
  rw [State.takeOpening_opens (.inl hs) hu, if_pos hs, State.opening, if_pos hs, ← hs]
  exact State.fitnessChanged_posted (Posted.refl (s.setStep .catchingUp (.stream n)))

/-! ## A stream reopened (R171, log 39) -/

/-- With no stream of its own FREEZING, a station that abandons its catch-up has SHADOW out of use. -/
theorem State.abandonCatchUp_use {r : AbandonReason} (h : s.sync.responder ≠ .freezing) :
    (s.abandonCatchUp r).store.use = .empty := by
  have look : SameBut [.apply, .line] (s.abandoning r) (s.abandoning r).kick :=
    State.kickFor_outOfStep _ (by simp [State.abandoning_sync]) (by rw [State.abandoning_sync]; exact h)
  have store : (s.abandonCatchUp r).store = (s.abandoning r).store :=
    (s.abandonCatchUp_kick r .store (by decide)).trans (look .store (by decide))
  rw [store, (s.abandoning_shadow r).2]

/-- The stream received is abandoned, and taken anew. -/
def State.reopened (s : State) (n : StationNo) : State := (s.abandonCatchUp .order).takeOpening n

theorem State.reopened_opened (hr : s.sync.responder ≠ .freezing) : (s.reopened n).followLights.Opened n :=
  State.takeOpening_opened (.inl (s.abandonCatchUp_abandons .order).step) (State.abandonCatchUp_use hr)

theorem State.reopened_tells (hr : s.sync.responder ≠ .freezing) (hs : s.sync.step = .catchingUp)
    (hn : s.sync.source = some n) :
    Announced s (s.reopened n)
        (.step .outOfStep .catchingUp (.abandoned .order (some n) s.sync.written s.sync.count) s.store.summary) ∧
      Announced s (s.reopened n) (.step .catchingUp .outOfStep (.stream n) s.store.summary) := by
  have left := s.abandonCatchUp_abandons .order
  have same : SameBut [.store, .apply, .sched, .out, .line, .sync, .pair, .port] s (s.abandonCatchUp .order) := by simp
  have live : (s.abandonCatchUp .order).store.summary = s.store.summary := (same .live (by decide)).2
  have posted := left.posted
  have opens := State.takeOpening_tells (n := n) left.step (State.abandonCatchUp_use hr)
  rw [hs, hn] at posted
  rw [live] at opens
  have before : Posted s.port (s.abandonCatchUp .order) :=
    (State.post_posted (Posted.refl s) (.step .outOfStep .catchingUp (.abandoned .order (some n) s.sync.written s.sync.count)
      s.store.summary)).trans posted
  have after : Posted (s.abandonCatchUp .order).port (s.reopened n) := (State.post_posted (Posted.refl _) _).trans opens
  exact ⟨((Posted.refl s).announced posted).later after, before.announced opens⟩

/-! ## A part 0, by the step state (R166, R171) -/

theorem execReceivePartOpening_heard (dt : Nat) {rx : Reception} {b : Byte} {x : List Byte}
    (h : s.hears rx n b (.part 0 x)) :
    exec (.receivePartOpening dt rx) s = .next ((s.elapse dt).rxOver.openingHeard n).followLights :=
  congrArg State.done (State.receive_heard dt (f := (·.openingHeard n)) h rfl)

theorem State.openingHeard_inStep (h : s.sync.step = .inStep) : s.openingHeard n = s.cancelRound := by
  simp [State.openingHeard, h]

theorem State.openingHeard_mayOpen (h : s.mayOpen) : s.openingHeard n = s.takeOpening n := by
  rcases h with h | ⟨h, hp⟩
  · simp [State.openingHeard, h]
  · simp [State.openingHeard, h, hp]

theorem State.openingHeard_reopens (hs : s.sync.step = .catchingUp) (hp : s.sync.phase = .receiving)
    (hn : s.sync.source = some n) : s.openingHeard n = s.reopened n := by
  simp [State.openingHeard, hs, hp, hn, State.reopened]

theorem State.openingHeard_ignored (h : s.sync.step = .joining ∨
    s.sync.step = .inStep ∧ s.sync.responder ∈ [.idle, .freezing, .sending] ∨
    s.sync.step = .catchingUp ∧ (s.sync.phase = .checking ∨ s.sync.phase = .swapping ∨
      s.sync.phase = .receiving ∧ s.sync.source ≠ some n) ∨
    s.mayOpen ∧ s.store.use ≠ .empty) : s.openingHeard n = s := by
  rcases h with hs | ⟨hs, hr⟩ | ⟨hs, hp | hp | ⟨hp, hn⟩⟩ | ⟨hm, hu⟩
  · simp [State.openingHeard, hs]
  · rw [State.openingHeard_inStep hs, State.cancelRound_streaming hr]
  · simp [State.openingHeard, hs, hp]
  · simp [State.openingHeard, hs, hp]
  · simp [State.openingHeard, hs, hp, hn]
  · rw [State.openingHeard_mayOpen hm, State.takeOpening_refuses hu]

/-- Settles O31: an ASK by the responder state, a part 0 by the step state. -/
theorem askAndOpeningHeard : Obligations.AskAndOpeningHeard := by
  intro s dt rx n b
  refine ⟨fun hears => ?ask, fun x hears => ?opening⟩
  case ask =>
    refine ⟨_, execReceiveAsk_heard dt hears, by simp, fun hs => ?_, fun hs hi hm hp => ?_, fun hs hr => ?_, fun hr => ?_⟩ <;>
      rw [State.followLights_sync]
    · rw [State.askHeard_ignored (s := (s.elapse dt).rxOver) (.inl hs)]
      rfl
    · rw [State.askHeard_starts (s := (s.elapse dt).rxOver) hs hi hm hp]
      rfl
    · exact State.askHeard_kept (s := (s.elapse dt).rxOver) hs hr
    · rw [State.askHeard_ignored (s := (s.elapse dt).rxOver) (.inr hr)]
      rfl
  case opening =>
    have same : SameBut [.clock, .store, .apply, .sched, .out, .line, .sync, .pair, .port] s
        ((s.elapse dt).rxOver.openingHeard n).followLights := by simp
    refine ⟨_, execReceivePartOpening_heard dt hears, same .live (by decide), same .tb (by decide), same .roster (by decide),
      fun hs hr => ?waiting, fun hs hr ht => ?offered, fun hi => ?ignored, fun hs hp hn hr => ?reopens, fun hm hu => ?opens⟩
    case waiting =>
      rw [State.followLights_sync, State.openingHeard_inStep (s := (s.elapse dt).rxOver) hs,
        State.cancelRound_waiting (s := (s.elapse dt).rxOver) hr]
      rfl
    case offered =>
      have silent : (s.elapse dt).rxOver.line.transmitting = false := ht
      rw [State.openingHeard_inStep (s := (s.elapse dt).rxOver) hs, State.cancelRound_opening (s := (s.elapse dt).rxOver) hr silent]
      refine ⟨State.followLights_sync _, ?_, fun m hm hp => ?_, State.followLights_port _⟩
      · rw [State.followLights_line]
        exact State.withdraw_bulk silent _
      · rw [State.followLights_line]
        exact State.withdraw_backoff silent hm hp
    case ignored =>
      rw [State.openingHeard_ignored (s := (s.elapse dt).rxOver) hi]
      simp
    case reopens =>
      have idle : (s.elapse dt).rxOver.sync.responder ≠ .freezing := by
        rw [show (s.elapse dt).rxOver.sync.responder = _ from hr]
        decide
      obtain ⟨abandoned, opens⟩ := State.reopened_tells (s := (s.elapse dt).rxOver) idle hs hn
      have opened := State.reopened_opened (n := n) idle
      have lights : Posted ((s.elapse dt).rxOver.reopened n).port ((s.elapse dt).rxOver.reopened n).followLights := by simp
      rw [State.openingHeard_reopens (s := (s.elapse dt).rxOver) hs hp hn]
      exact ⟨abandoned.later lights, opens.later lights, opened.step, opened.phase, opened.source, opened.expected,
        opened.written, opened.count, opened.buffer, opened.shadow, opened.use, opened.holding⟩
    case opens =>
      have opened := State.takeOpening_opened (s := (s.elapse dt).rxOver) (n := n) hm hu
      rw [State.openingHeard_mayOpen (s := (s.elapse dt).rxOver) hm]
      exact ⟨opened.step, opened.phase, opened.source, opened.expected, opened.buffer, opened.shadow, opened.use,
        opened.holding⟩

end Sys2Proof.Machine
end

section
/-! PROOFS. A PART heard (O32). -/

namespace Sys2Proof.Machine

variable {s : State} {n : StationNo} {k : Nat} {x : List Byte}

theorem execReceivePart_heard (dt : Nat) {rx : Reception} {b : Byte} (h : s.hears rx n b (.part k x)) (hk : k ≠ 0) :
    exec (.receivePart dt rx) s = .next ((s.elapse dt).rxOver.partHeard n k x).followLights :=
  congrArg State.done (State.receive_heard dt (f := (·.partHeard n k x)) h (if_neg hk))

/-- The expected part has not passed the last one of a stream whose count is known (R172). -/
theorem Sync.passedLast_eq_false {y : Sync} : y.passedLast = false ↔ ∀ c, y.count = some c → y.expected ≤ c + 1 := by
  unfold Sync.passedLast
  split
  · next c hc => simp [hc]
  · next hc => simp [hc]

theorem Sync.passedLast_of_count {y : Sync} {c : Nat} (hc : y.count = some c) (h : c + 1 < y.expected) :
    y.passedLast = true := by
  simp [Sync.passedLast, hc, h]

theorem State.partHeard_ignored (h : s.sync.step ≠ .catchingUp ∨ s.sync.phase ≠ .receiving ∨ s.sync.source ≠ some n ∨
    s.sync.passedLast = true) : s.partHeard n k x = s := if_pos h

/-- The stream of station `n` is being received, and its last part is yet to be heard (R172). -/
structure State.Receiving (s : State) (n : StationNo) : Prop where
  step : s.sync.step = .catchingUp
  phase : s.sync.phase = .receiving
  source : s.sync.source = some n
  awaitsPart : s.sync.passedLast = false

/-- The expected part, taken into the buffer (R172). -/
def State.buffered (s : State) (k : Nat) (x : List Byte) : State :=
  s.modSync fun y => { y with
    buffer := y.buffer ++ [(k, x)], expected := y.expected + 1, gap := 0
    count := if k = 1 then (readPart1 x).map (·.2) else y.count }

section
variable (h : s.Receiving n)
include h

theorem State.Receiving.notIgnored : ¬ (s.sync.step ≠ .catchingUp ∨ s.sync.phase ≠ .receiving ∨ s.sync.source ≠ some n ∨
    s.sync.passedLast = true) := by
  simp [h.step, h.phase, h.source, h.awaitsPart]

theorem State.partHeard_taken (hk : k = s.sync.expected) (hb : s.sync.buffer.length < 2) :
    s.partHeard n k x = (s.buffered k x).wantWrite :=
  (if_neg h.notIgnored).trans ((if_neg (not_not_intro hk)).trans (if_neg (Nat.not_le_of_lt hb)))

/-- Out of order, or with the buffer full, the catch-up is abandoned (R172, R175). -/
theorem State.partHeard_abandons (hk : k ≠ s.sync.expected ∨ 2 ≤ s.sync.buffer.length) :
    ∃ r, s.partHeard n k x = s.abandonCatchUp r := by
  by_cases he : k = s.sync.expected
  · have hb := hk.resolve_left (not_not_intro he)
    exact ⟨.overrun, (if_neg h.notIgnored).trans ((if_neg (not_not_intro he)).trans (if_pos hb))⟩
  · exact ⟨.order, (if_neg h.notIgnored).trans (if_pos he)⟩

end

theorem State.wantWrite_same_store (s : State) : SameBut [.store] s s.wantWrite := by simp

/-- The part in the buffer asks for its write, where the store is free and nothing of the sync engine waits (R17, R172). -/
theorem State.wantWrite_requests (hp : s.sync.phase = .receiving) {q : List (Nat × List Byte)}
    (hq : s.sync.buffer = (k, x) :: q) (hh : s.store.holder = none) (hw : s.store.waitSync = none) :
    s.wantWrite.store.holder = some (.partWrite k x) := by
  have hb : s.store.busy .sync = false := by simp [Store.busy, Store.waiting, hh, hw]
  have e : s.wantWrite = s.request (.partWrite k x) := by simp [State.wantWrite, hp, hb, hq]
  rw [e]
  simp [State.request, Store.request, Store.start, hh]

/-- Settles O32: the part is ignored, joins the buffer, or abandons the catch-up. -/
theorem partTaken : Obligations.PartTaken := by
  intro s dt rx n b k x hears hk
  refine ⟨fun hi => ?ignored, fun hs hp hn hc => ?received⟩
  case ignored =>
    have e : (s.elapse dt).rxOver.partHeard n k x = (s.elapse dt).rxOver := by
      refine State.partHeard_ignored ?_
      rcases hi with h | h | h | ⟨c, hc, hl⟩
      · exact .inl h
      · exact .inr (.inl h)
      · exact .inr (.inr (.inl h))
      · exact .inr (.inr (.inr (Sync.passedLast_of_count hc hl)))
    refine ⟨_, execReceivePart_heard dt hears hk, ?_⟩
    rw [e]
    simp
  case received =>
    have receiving : (s.elapse dt).rxOver.Receiving n := ⟨hs, hp, hn, Sync.passedLast_eq_false.mpr hc⟩
    have same : SameBut [.clock, .store, .apply, .sched, .out, .line, .sync, .pair, .port] s
        ((s.elapse dt).rxOver.partHeard n k x).followLights := by simp
    have taken : k = s.sync.expected → s.sync.buffer.length < 2 →
        (s.elapse dt).rxOver.partHeard n k x = ((s.elapse dt).rxOver.buffered k x).wantWrite :=
      fun he hb => State.partHeard_taken receiving he hb
    have abandoned (ho : k ≠ s.sync.expected ∨ 2 ≤ s.sync.buffer.length) :
        ∃ r, (s.elapse dt).rxOver.Abandoned ((s.elapse dt).rxOver.partHeard n k x).followLights r := by
      obtain ⟨r, e⟩ := State.partHeard_abandons (x := x) receiving ho
      exact ⟨r, e ▸ (State.abandonCatchUp_abandons _ r).followLights⟩
    refine ⟨_, execReceivePart_heard dt hears hk, same .live (by decide), same .tb (by decide), same .roster (by decide),
      fun hl => ?bound, fun he hb => ?joins, fun ho => ?abandons⟩
    case bound =>
      by_cases hj : k = s.sync.expected ∧ s.sync.buffer.length < 2
      · rw [State.followLights_sync, taken hj.1 hj.2, State.wantWrite_same_store _ .sync (by decide)]
        show (s.sync.buffer ++ [(k, x)]).length ≤ 2
        rw [List.length_append, List.length_singleton]
        exact hj.2
      · obtain ⟨r, left⟩ := abandoned (by omega)
        rw [left.buffer]
        exact Nat.zero_le _
    case joins =>
      have store := State.wantWrite_same_store ((s.elapse dt).rxOver.buffered k x)
      have sync : ((s.elapse dt).rxOver.buffered k x).wantWrite.followLights.sync = _ :=
        (State.followLights_sync _).trans (store .sync (by decide))
      rw [taken he hb, sync]
      refine ⟨hs, ?_, rfl, rfl, ?_, ?_, fun hz hh hw => ?_⟩
      · rw [he]; rfl
      · exact (State.followLights_apply _).trans (store .apply (by decide))
      · exact (State.followLights_port _).trans (store .port (by decide))
      · rw [State.followLights_store]
        exact State.wantWrite_requests (s := (s.elapse dt).rxOver.buffered k x) (q := []) hp
          (by simp [State.buffered, State.rxOver, hz]) hh hw
    case abandons =>
      obtain ⟨r, left⟩ := abandoned ho
      exact ⟨left.step, left.source, left.shadow, left.holding⟩

end Sys2Proof.Machine
end

section
/-! PROOFS. A part written into SHADOW, and the check of the whole (O48). -/

namespace Sys2Proof.Machine

variable {s : State} {k : Nat} {x : List Byte}

theorem execPartWrite_holding (h : s.store.holder = some (.partWrite k x)) :
    exec .partWrite s = .next (s.partWriteDone k x).followLights := by
  show State.done _ = _
  simp only [h]; rfl

theorem execShadowCheck_holding (h : s.store.holder = some .shadowCheck) :
    exec .shadowCheck s = .next s.shadowCheckDone.followLights := by
  show State.done _ = _
  rw [if_pos h]; rfl

/-! ## A part that passes -/

/-- SHADOW with the part in it, the store released, and the part counted as written (R172). -/
def State.partWritten (s : State) (r : Replica) : State :=
  ((s.modStore fun st => { st with shadow := r }).release).modSync fun y =>
    { y with written := y.written + 1, buffer := y.buffer.tail }

theorem State.partWritten_same (s : State) (r : Replica) : SameBut [.store, .sync] s (s.partWritten r) := by
  have hs : SameBut [.store] s (s.modStore fun st => { st with shadow := r }) := by simp
  exact (State.modSync_same _ (by simp)).mpr ((State.release_same (by simp)).mpr (hs.mono (by simp)))

theorem State.partWritten_shadow (s : State) (r : Replica) : (s.partWritten r).store.shadow = r := Store.release_shadow

theorem State.partWritten_sync (s : State) (r : Replica) :
    (s.partWritten r).sync = { s.sync with written := s.sync.written + 1, buffer := s.sync.buffer.tail } := rfl

theorem State.wantWrite_shadow (s : State) : s.wantWrite.store.shadow = s.store.shadow := by
  unfold State.wantWrite
  split
  · split
    · exact Store.request_shadow _
    · rfl
  · rfl

section
variable {r : Replica} (hd : s.store.dropped = false) (hw : s.store.shadow.writePart k x = some r)
include hd hw

/-- The last part is followed by the check (R172, R174). -/
theorem State.partWriteDone_last (hc : s.sync.count = some s.sync.written) : s.partWriteDone k x =
    ((s.partWritten r).modSync fun y => { y with phase := .checking }).request .shadowCheck := by
  have h : (s.partWritten r).sync.count.map (· + 1) = some (s.partWritten r).sync.written := by
    simp [State.partWritten_sync, hc]
  simp only [State.partWriteDone, hd, hw, Bool.false_eq_true, if_false]
  exact if_pos h

/-- Any other is followed by the next part of the buffer (R172). -/
theorem State.partWriteDone_more (hc : s.sync.count ≠ some s.sync.written) :
    s.partWriteDone k x = (s.partWritten r).wantWrite := by
  have h : (s.partWritten r).sync.count.map (· + 1) ≠ some (s.partWritten r).sync.written := by
    simpa [State.partWritten_sync] using hc
  simp only [State.partWriteDone, hd, hw, Bool.false_eq_true, if_false]
  exact if_neg h

/-- The part joins SHADOW, and leaves the buffer (R172). -/
theorem State.partWriteDone_joins : (s.partWriteDone k x).store.shadow = r ∧ SameBut [.store, .sync] s (s.partWriteDone k x) ∧
    (s.partWriteDone k x).sync = { s.sync with
      written := s.sync.written + 1, buffer := s.sync.buffer.tail
      phase := if s.sync.count = some s.sync.written then .checking else s.sync.phase } := by
  have written := s.partWritten_same r
  by_cases hc : s.sync.count = some s.sync.written
  · rw [State.partWriteDone_last hd hw hc, if_pos hc]
    exact ⟨(Store.request_shadow _).trans (s.partWritten_shadow r), by simpa using written, rfl⟩
  · have want : SameBut [.store] (s.partWritten r) (s.partWritten r).wantWrite := by simp
    rw [State.partWriteDone_more hd hw hc, if_neg hc]
    exact ⟨(State.wantWrite_shadow _).trans (s.partWritten_shadow r), by simpa using written, want .sync (by decide)⟩

end

/-! ## Failures, and the check -/

theorem State.partWriteDone_abandons (hd : s.store.dropped = false) (hw : s.store.shadow.writePart k x = none) :
    s.partWriteDone k x = s.release.abandonCatchUp .badPart := by
  simp [State.partWriteDone, hd, hw]

theorem State.shadowCheckDone_abandons (hd : s.store.dropped = false) (hc : s.store.shadow.checkWord ≠ s.store.shadow.check) :
    s.shadowCheckDone = s.release.abandonCatchUp .check := by
  simp [State.shadowCheckDone, hd, hc]

theorem State.shadowCheckDone_swaps (hd : s.store.dropped = false) (hc : s.store.shadow.checkWord = s.store.shadow.check) :
    s.shadowCheckDone = ((s.release).modSync fun y => { y with phase := .swapping }).request .bankSwap := by
  simp [State.shadowCheckDone, hd, hc]

/-- Settles O48: each operation by what it comes to where its check passes, and where it fails. -/
theorem partWriteAndShadowCheck : Obligations.PartWriteAndShadowCheck := by
  intro s _ hd
  refine ⟨fun k x hh => ?write, fun hh => ?check⟩
  case write =>
    have same : SameBut [.store, .apply, .sched, .out, .line, .sync, .pair, .port] s (s.partWriteDone k x).followLights := by simp
    refine ⟨_, execPartWrite_holding hh, same .live (by decide), same .tb (by decide), same .roster (by decide),
      fun r hw => ?_, fun hw => ?_⟩
    · obtain ⟨shadow, only, sync⟩ := State.partWriteDone_joins hd hw
      have port : (s.partWriteDone k x).followLights.port = s.port := (State.followLights_port _).trans (only .port (by decide))
      rw [State.followLights_store, State.followLights_sync, sync]
      exact ⟨shadow, rfl, rfl, rfl, port, fun hc => if_pos hc, fun hc => if_neg hc⟩
    · have left := (s.release.abandonCatchUp_abandons .badPart).followLights
      rw [← State.partWriteDone_abandons hd hw] at left
      exact ⟨left.step, left.shadow⟩
  case check =>
    have same : SameBut [.store, .apply, .sched, .out, .line, .sync, .pair, .port] s s.shadowCheckDone.followLights := by simp
    refine ⟨_, execShadowCheck_holding hh, same .live (by decide), same .tb (by decide), same .roster (by decide),
      fun hc => ?_, fun hc => ?_⟩
    · rw [Agree, State.followLights_store, State.followLights_sync, State.followLights_port, State.shadowCheckDone_swaps hd hc]
      exact ⟨rfl, (Store.request_shadow _).trans Store.release_shadow, rfl⟩
    · have left := (s.release.abandonCatchUp_abandons .check).followLights
      rw [← State.shadowCheckDone_abandons hd hc] at left
      exact ⟨left.step, left.shadow⟩

end Sys2Proof.Machine
end

section
/-! PROOFS. A yield that fails, and the partner's YIELD heard (O23). -/

namespace Sys2Proof.Machine

variable {s t : State} {n : StationNo} {c : RoleCause}

/-! ## The partner's roster entry, as the pair monitor reads it -/

section
variable (hn : s.config.partner = some n)
include hn

theorem State.partnerEntry_peer : s.partnerEntry = some (s.peer n) := by rw [State.partnerEntry, hn, Option.map_some]

theorem State.partnerPresent_peer : s.partnerPresent = (s.peer n).present := by
  rw [State.partnerPresent, State.partnerEntry_peer hn]

theorem State.partnerContents_peer : s.partnerContents = (s.peer n).contents := by
  rw [State.partnerContents, State.partnerEntry_peer hn]

end

/-! ## A change of role, as the host sees it -/

/-- A station in RUN that has become ACTIVE raises its changeover line, and ROLE is posted (R110, R186). -/
theorem State.becomeActive_shows (hr : s.run = .run) (hs : s.pair.role = .standby) (hn : s.config.partner = some n)
    (ht : SameBut [.out] (s.becomeActive c) t) :
    t.pair.role = .active ∧ t.pair.blocked = false ∧ t.changeoverPin = true ∧
      Announced s t (.role .active .standby c s.now (some n) (s.peer n).present s.partnerDone) := by
  have pair : t.pair = _ := (ht .pair (by decide)).trans (State.becomeActive_pair c)
  have same : SameBut [.store, .sched, .out, .pair, .port] s (s.becomeActive c) := by simp
  have run : t.run = .run := (ht .run (by decide)).trans ((same .run (by decide)).trans hr)
  have told := (Posted.step ht (by decide)).mpr (s.becomeActive_tells c)
  rw [hs, hn, State.partnerPresent_peer hn] at told
  exact ⟨by rw [pair], by rw [pair], by simp [State.changeoverPin, State.shows, State.isRun, run, pair],
    (Posted.refl s).announced told⟩

/-- A STANDBY member that is blocked says so once, with what is last known of its partner (R182). -/
theorem State.block_shows (hs : s.pair.role = .standby) (hn : s.config.partner = some n)
    (ht : SameBut [.out] (s.block c) t) :
    t.pair = { s.pair with blocked := true } ∧
      BlockedBy s t s.port c (s.peer n).present ((s.peer n).contents.map (·.role)) := by
  have pair : t.pair = _ := (ht .pair (by decide)).trans (State.block_pair c)
  have port : t.port = _ := (ht .port (by decide)).trans (State.block_port c)
  rw [State.partnerPresent_peer hn, State.partnerContents_peer hn] at port
  exact ⟨pair, by rw [pair]; exact hs, by rw [pair], port⟩

/-! ## A YIELD heard -/

theorem execReceiveYield_heard (dt : Nat) {rx : Reception} {b : Byte} (h : s.hears rx n b .yield) :
    exec (.receiveYield dt rx) s = .next ((s.elapse dt).rxOver.yieldHeard n).followLights := by
  have hr := State.receive_heard dt (act := fun n _ m => match m with
    | .yield => some (State.unlessOwn n (·.yieldHeard n))
    | _ => none) h rfl
  exact congrArg State.done (hr.trans (if_neg h.2.2))

theorem State.yieldHeard_ignored (h : s.config.pairMode = .none ∨ s.config.partner ≠ some n ∨ s.pair.role ≠ .standby) :
    s.yieldHeard n = s := by
  refine if_pos ?_
  rcases h with h | h | h <;> simp [State.isPaired, h]

section
variable (hp : s.config.pairMode ≠ .none) (hn : s.config.partner = some n) (hs : s.pair.role = .standby)
include hp hn hs

/-- A paired STANDBY member that hears its partner (R185). -/
theorem State.yieldHeard_partner :
    s.yieldHeard n = if s.fit then s.becomeActive .yieldReceived else s.block .yieldReceived := by
  simp [State.yieldHeard, State.isPaired, hp, hn, hs]

variable (dt : Nat) {rx : Reception} {b : Byte} (hears : s.hears rx n b .yield)
include hears

theorem execReceiveYield_fit (hf : s.fit = true) : exec (.receiveYield dt rx) s =
    .next ((s.elapse dt).rxOver.becomeActive .yieldReceived).followLights := by
  have partner := State.yieldHeard_partner (s := (s.elapse dt).rxOver) hp hn hs
  rw [show (s.elapse dt).rxOver.fit = true from hf, if_pos rfl] at partner
  rw [execReceiveYield_heard dt hears, partner]

theorem execReceiveYield_unfit (hf : s.fit = false) : exec (.receiveYield dt rx) s =
    .next ((s.elapse dt).rxOver.block .yieldReceived).followLights := by
  have partner := State.yieldHeard_partner (s := (s.elapse dt).rxOver) hp hn hs
  rw [show (s.elapse dt).rxOver.fit = false from hf, if_neg Bool.false_ne_true] at partner
  rw [execReceiveYield_heard dt hears, partner]

end

/-! ## A yield that has failed -/

theorem State.yieldExpire_fails (hy : s.pair.yield = .pending) (hc : 30 ≤ s.pair.yieldCount) :
    s.yieldExpire = (s.modPair fun p => { p with yield := .none, yieldCount := 0 }).post
      (.yieldFailed s.config.partner s.partnerPresent (s.partnerContents.map (·.role))) :=
  if_pos ⟨hy, hc⟩

theorem execYieldFailed_run (hr : s.run = .run) : exec .yieldFailed s = .next s.yieldExpire :=
  congrArg Host.Outcome.next (State.inRun_run hr 0 State.yieldExpire)

/-- Settles O23: the limit by what its command does there, the YIELD by the pair, the role and fitness. -/
theorem yieldTimesOutAndTakesOver : Obligations.YieldTimesOutAndTakesOver := by
  refine ⟨fun s hr hy hc => ?expires, fun s dt rx n b hears => ?heard⟩
  case expires =>
    have same : SameBut [.pair, .port] s s.yieldExpire := by simp
    refine ⟨_, execYieldFailed_run hr, same, ?_, ?_⟩ <;> rw [State.yieldExpire_fails hy hc] <;> rfl
  case heard =>
    refine ⟨fun hp hn hs hf => ?takesOver, fun hp hn hs hf => ?blocked, fun h => ?ignored⟩
    case takesOver =>
      have same : SameBut [.clock, .line, .store, .sched, .out, .pair, .port] s
          ((s.elapse dt).rxOver.becomeActive .yieldReceived).followLights := by simp
      obtain ⟨role, blocked, pin, told⟩ := State.becomeActive_shows (s := (s.elapse dt).rxOver) (c := .yieldReceived)
        hears.1.1 hs hn ((State.followLights_same (by simp)).mpr .self)
      exact ⟨_, execReceiveYield_fit hp hn hs dt hears hf, role, blocked, pin, told, same .live (by decide),
        same .sync (by decide), same .tb (by decide), same .roster (by decide)⟩
    case blocked =>
      obtain ⟨pair, told⟩ := State.block_shows (s := (s.elapse dt).rxOver) (c := .yieldReceived) hs hn
        ((State.followLights_same (by simp)).mpr .self)
      exact ⟨_, execReceiveYield_unfit hp hn hs dt hears hf, pair, told, by simp⟩
    case ignored =>
      refine ⟨_, execReceiveYield_heard dt hears, ?_⟩
      rw [State.yieldHeard_ignored (s := (s.elapse dt).rxOver) h]
      simp

end Sys2Proof.Machine
end

section
/-! PROOFS. The settlement of a takeover (O51): the table, then the shadow list, each notice of its own entry or record. -/

namespace Sys2Proof.Machine

variable {s t : State} {m : Emit} {n : Notice}

/-! ## A notice among others -/

/-- From `p` to `q` the notice `n` is posted, others before and after it or none. -/
def Port.tells (p q : Port) (n : Notice) : Prop := ∃ r : Port, p.grows r ∧ (r.post n).grows q

section
variable {p q r : Port}

theorem Port.post_tells (p : Port) (n : Notice) : p.tells (p.post n) n := ⟨p, p.grows_refl, (p.post n).grows_refl⟩

theorem Port.tells.later (h : p.tells q n) (k : q.grows r) : p.tells r n := by
  obtain ⟨x, before, after⟩ := h
  exact ⟨x, before, Port.grows_trans after k⟩

theorem Port.tells.sooner (k : p.grows q) (h : q.tells r n) : p.tells r n := by
  obtain ⟨x, before, after⟩ := h
  exact ⟨x, Port.grows_trans k before, after⟩

theorem Port.tells.announced (hp : s.port.grows p) (h : p.tells t.port n) : Announced s t n := by
  obtain ⟨x, ⟨urgent, routine, -, -⟩, ⟨urgent', routine', -, -⟩⟩ := Port.tells.sooner hp h
  exact ⟨x, urgent, routine, urgent', routine'⟩

end

/-! ## A list of actions of the scheduler -/

section
variable {α : Type} {f : Emit → α → Emit}

theorem Emit.foldl_grows (grows : ∀ (m : Emit) a, m.port.grows (f m a).port) (l : List α) (m : Emit) :
    m.port.grows (l.foldl f m).port :=
  Emit.foldl_sat (P := fun x => m.port.grows x.port) (fun x a h => Port.grows_trans h (grows x a)) l m.port.grows_refl

/-- What the action for `a` posts wherever `P` holds is posted by the whole list, where the actions for the others keep `P`. -/
theorem Emit.foldl_tells {P : Emit → Prop} {a : α} (grows : ∀ (m : Emit) b, m.port.grows (f m b).port)
    (keeps : ∀ m b, b ≠ a → P m → P (f m b)) (tells : ∀ m, P m → m.port.tells (f m a).port n) {l : List α} (ha : a ∈ l)
    (hm : P m) : m.port.tells (l.foldl f m).port n := by
  induction l generalizing m with
  | nil => cases ha
  | cons b l ih =>
    by_cases hb : b = a
    · subst hb
      exact (tells m hm).later (Emit.foldl_grows grows l _)
    · exact Port.tells.sooner (grows m b) (ih ((List.mem_cons.mp ha).resolve_left (Ne.symm hb)) (keeps m b hb hm))

/-- Actions that each leave the state as it is. -/
theorem Emit.foldl_idle {l : List α} (h : ∀ a ∈ l, f m a = m) : l.foldl f m = m := by
  induction l with
  | nil => rfl
  | cons a l ih =>
    rw [List.foldl_cons, h a List.mem_cons_self]
    exact ih fun b hb => h b (List.mem_cons_of_mem a hb)

end

/-! ## The table by name -/

theorem Scheduler.find_mem {sc : Scheduler} {k : EntryKey} {e : Entry} (h : sc.find k = some e) :
    e ∈ sc.armed ∧ e.key = k :=
  ⟨List.mem_of_find?_eq_some h, by simpa using List.find?_some h⟩

/-- No two entries have one name, and so an entry is found by its name (R72). -/
theorem find?_key_of_mem {es : List Entry} (hn : distinctNames es) {e : Entry} (he : e ∈ es) :
    es.find? (fun x => decide (x.key = e.key)) = some e := by
  induction es with
  | nil => cases he
  | cons a es ih =>
    obtain ⟨fresh, hn⟩ := List.nodup_cons.mp hn
    rcases List.mem_cons.mp he with rfl | he
    · exact List.find?_cons_of_pos (decide_eq_true rfl)
    · have other : a.key ≠ e.key := fun h => fresh (h ▸ List.mem_map_of_mem he)
      rw [List.find?_cons_of_neg (by simpa only [decide_eq_true_eq] using other), ih hn he]

theorem Scheduler.find_of_mem {sc : Scheduler} (hn : distinctNames sc.armed) {e : Entry} (he : e ∈ sc.armed) :
    sc.find e.key = some e := find?_key_of_mem hn he

@[simp] theorem Emit.setArmed_armed (env : Env) (es : List Entry) (m : Emit) :
    (m.setArmed env es).sched.armed = sortEntries env es := rfl

theorem Emit.mem_replace {env : Env} {e x : Entry} (h : x ∈ (m.replace env e).sched.armed) :
    x = e ∨ x ∈ m.sched.armed := by
  rw [Emit.replace, Emit.setArmed_armed, mem_sortEntries, List.mem_map] at h
  obtain ⟨y, hy, rfl⟩ := h
  split
  · exact .inl rfl
  · exact .inr hy

theorem Emit.replace_other {env : Env} {e x : Entry} (hx : x ∈ m.sched.armed) (hk : x.key ≠ e.key) :
    x ∈ (m.replace env e).sched.armed := by
  rw [Emit.replace, Emit.setArmed_armed, mem_sortEntries]
  exact List.mem_map.mpr ⟨x, hx, if_neg hk⟩

/-- That names are distinct is kept by every action of the scheduler. -/
theorem Emit.distinctNames_closed : Emit.Closed fun m => distinctNames m.sched.armed where
  post _ _ h := h
  out _ _ h := h
  sched _ _ h _ _ hn := hn h

/-- The scheduler's record without its table. -/
def Scheduler.besideTable (sc : Scheduler) : Scheduler := { sc with armed := [] }

/-! ## One entry -/

/-- SHADOW cleared (R98). -/
def Entry.unshadowed (e : Entry) : Entry := { e with flags := { e.flags with shadow := false } }

/-- An entry whose withheld FIRE the takeover posts at `now`, its fire frame `f` (R190). -/
def Entry.takenOver (now f : Frame) (e : Entry) : Entry :=
  if e.state = .running then
    { e with withheld := false, joinOffset := some (now - f), flags := { e.flags with joined := true } }
  else { e with withheld := false }

theorem Entry.takenOver_key (now f : Frame) (e : Entry) : (e.takenOver now f).key = e.key := by
  unfold Entry.takenOver
  split <;> rfl

theorem Entry.takenOver_shadow (now f : Frame) (e : Entry) : (e.takenOver now f).flags.shadow = e.flags.shadow := by
  unfold Entry.takenOver
  split <;> rfl

section
variable {now f : Frame} {e : Entry}

/-- The FIRE of a clip that runs: JOINED, with its offset (R190). -/
theorem Entry.fireNotice_running (h : e.state = .running) : (e.unshadowed.takenOver now f).fireNotice f =
    .fire e.item e.cue.slot e.cue.resource f e.length { e.flags with shadow := false, joined := true }
      (if e.flags.deferred then some e.deferral else none) (some (now - f)) e.cue.param := by
  rw [Entry.takenOver, if_pos (by exact h)]
  rfl

/-- The FIRE of an entry that has not started, as it would have been posted (R190). -/
theorem Entry.fireNotice_waiting (h : e.state ≠ .running) : (e.unshadowed.takenOver now f).fireNotice f =
    .fire e.item e.cue.slot e.cue.resource f e.length { e.flags with shadow := false }
      (if e.flags.deferred then some e.deferral else none) (if e.flags.joined then e.joinOffset else none) e.cue.param := by
  rw [Entry.takenOver, if_neg (by exact h)]
  rfl

end

section
variable {env : Env} {k : EntryKey}

theorem Emit.takeEntry_withheld {e : Entry} {f : Frame} (hk : m.sched.find k = some e) (hw : e.withheld = true)
    (hf : e.fire = some f) : m.takeEntry env k =
      (m.replace env (e.takenOver env.now f)).post ((e.takenOver env.now f).fireNotice f) := by
  simp only [Emit.takeEntry, Entry.takenOver, hk, hf, hw, Bool.not_true, Bool.false_eq_true, if_false]
  split <;> rfl

theorem Emit.takeEntry_idle (h : ∀ e, m.sched.find k = some e → e.withheld = false ∨ e.fire = none) :
    m.takeEntry env k = m := by
  unfold Emit.takeEntry
  split
  · rfl
  · next e he =>
    rcases h e he with hw | hf
    · simp only [hw, Bool.not_false, if_true]
      split <;> rfl
    · rw [hf]

/-- What the takeover can do at a name: nothing, or post the withheld FIRE of its entry. -/
theorem Emit.takeEntry_cases (env : Env) (m : Emit) (k : EntryKey) : m.takeEntry env k = m ∨
    ∃ e f, m.sched.find k = some e ∧
      m.takeEntry env k = (m.replace env (e.takenOver env.now f)).post ((e.takenOver env.now f).fireNotice f) := by
  cases hk : m.sched.find k with
  | none => exact .inl (Emit.takeEntry_idle fun e he => nomatch hk.symm.trans he)
  | some e =>
    have found {x : Entry} (hx : m.sched.find k = some x) : e = x := Option.some.inj (hk.symm.trans hx)
    cases hw : e.withheld with
    | false => exact .inl (Emit.takeEntry_idle fun x hx => .inl (found hx ▸ hw))
    | true =>
      cases hf : e.fire with
      | none => exact .inl (Emit.takeEntry_idle fun x hx => .inr (found hx ▸ hf))
      | some f => exact .inr ⟨e, f, rfl, Emit.takeEntry_withheld hk hw hf⟩

theorem Emit.takeEntry_grows (env : Env) (m : Emit) (k : EntryKey) : m.port.grows (m.takeEntry env k).port :=
  Emit.takeEntry_sat (Emit.grows_closed m.port) m.port.grows_refl env k

theorem Emit.takeEntry_besideTable (env : Env) (m : Emit) (k : EntryKey) :
    (m.takeEntry env k).sched.besideTable = m.sched.besideTable := by
  obtain h | ⟨e, f, -, h⟩ := m.takeEntry_cases env k <;> rw [h]
  rfl

/-- Only the entry of that name is touched. -/
theorem Emit.takeEntry_other {x : Entry} (hx : x ∈ m.sched.armed) (hk : x.key ≠ k) :
    x ∈ (m.takeEntry env k).sched.armed := by
  obtain h | ⟨e, f, he, h⟩ := m.takeEntry_cases env k <;> rw [h]
  · exact hx
  · exact Emit.replace_other hx (by rwa [Entry.takenOver_key, (Scheduler.find_mem he).2])

/-- No entry gets SHADOW. -/
theorem Emit.takeEntry_shadow_false (h : ∀ x ∈ m.sched.armed, x.flags.shadow = false) :
    ∀ x ∈ (m.takeEntry env k).sched.armed, x.flags.shadow = false := by
  obtain same | ⟨e, f, he, replaced⟩ := m.takeEntry_cases env k
  · rwa [same]
  · rw [replaced]
    intro x hx
    rcases Emit.mem_replace hx with rfl | hx
    · rw [Entry.takenOver_shadow]
      exact h e (Scheduler.find_mem he).1
    · exact h x hx

end

/-! ## One shadow record -/

/-- FIRE with LATE, and for a FIRE its END after it (R190). -/
def ShadowRec.lateNotices (r : ShadowRec) : List Notice :=
  .fire r.item r.cue.slot r.cue.resource r.fire r.length { r.flags with late := true, shadow := false } none none r.cue.param ::
    match r.cue.resource, r.endFrame with
    | some x, some f => [.ended r.item r.cue.slot x f r.cue.param r.flags.cut]
    | _, _ => []

theorem ShadowRec.ended_mem_lateNotices {r : ShadowRec} {x : Fin 16} {f : Frame} (hx : r.cue.resource = some x)
    (hf : r.endFrame = some f) : .ended r.item r.cue.slot x f r.cue.param r.flags.cut ∈ r.lateNotices := by
  simp [ShadowRec.lateNotices, hx, hf]

/-- What is said of a shadow record at a takeover, the partner's done-through frame being `d` (R190): nothing of one that the
partner has done or that is mirrored; else FIRE with LATE up to 8 frames late, and MISSED beyond. -/
def ShadowRec.notices (now : Frame) (d : Option Frame) (r : ShadowRec) : List Notice :=
  if doneBy d r.key || r.mirror then []
  else if fdiff now r.fire ≤ 8 then r.lateNotices
  else [.missed r.item r.cue .tooLate (some r.fire) (some (now - r.fire))]

/-- The settlement of a record posts its notices and does no more. -/
theorem Emit.takeRecord_posts (env : Env) (d : Option Frame) (m : Emit) (r : ShadowRec) :
    m.takeRecord env d r = (r.notices env.now d).foldl Emit.post m := by
  unfold Emit.takeRecord ShadowRec.notices ShadowRec.lateNotices
  split
  · rfl
  · split
    · cases r.cue.resource <;> cases r.endFrame <;> rfl
    · rfl

theorem Emit.post_grows (m : Emit) (n : Notice) : m.port.grows (m.post n).port := m.port.post_grows n

theorem Emit.takeRecord_grows (env : Env) (d : Option Frame) (m : Emit) (r : ShadowRec) :
    m.port.grows (m.takeRecord env d r).port := by
  rw [Emit.takeRecord_posts]
  exact Emit.foldl_grows Emit.post_grows _ m

theorem Emit.takeRecord_sched (env : Env) (d : Option Frame) (m : Emit) (r : ShadowRec) :
    (m.takeRecord env d r).sched = m.sched := by
  rw [Emit.takeRecord_posts]
  exact foldl_keeps (f := Emit.post) (g := Emit.sched) (fun _ _ => rfl) _ m

theorem Emit.takeRecord_tells {env : Env} {d : Option Frame} {r : ShadowRec} (h : n ∈ r.notices env.now d) (m : Emit) :
    m.port.tells (m.takeRecord env d r).port n := by
  rw [Emit.takeRecord_posts]
  exact Emit.foldl_tells (P := fun _ => True) Emit.post_grows (fun _ _ _ h => h) (fun m _ => m.port.post_tells n) h trivial

section
variable {now : Frame} {d : Option Frame} {r : ShadowRec}

theorem ShadowRec.notices_done (h : r.mirror = true ∨ ∃ x, d = some x ∧ later r.key x = false) : r.notices now d = [] := by
  refine if_pos ?_
  rcases h with h | ⟨x, rfl, h⟩
  · simp [h]
  · simp [doneBy, atOrBefore, h]

variable (hd : ∀ x, d = some x → later r.key x = true) (hm : r.mirror = false)
include hd hm

theorem ShadowRec.notices_due : r.notices now d = if fdiff now r.fire ≤ 8 then r.lateNotices
    else [.missed r.item r.cue .tooLate (some r.fire) (some (now - r.fire))] := by
  have h : doneBy d r.key = false := by
    cases d with
    | none => rfl
    | some x => simp [doneBy, atOrBefore, hd x rfl]
  unfold ShadowRec.notices
  rw [h, hm, Bool.or_false, if_neg Bool.false_ne_true]

end

/-! ## The whole settlement -/

/-- SHADOW cleared from every entry (R98, R190). -/
def Emit.unshadowed (env : Env) (m : Emit) : Emit := m.setArmed env (m.sched.armed.map Entry.unshadowed)

/-- The table settled: SHADOW cleared, and then each entry in table order (R190). -/
def Emit.tableSettled (env : Env) (m : Emit) : Emit :=
  (m.unshadowed env).keys.foldl (·.takeEntry env ·) (m.unshadowed env)

/-- The shadow list emptied, its overflow mark and the names of `list` kept for the read (R190, R191). -/
def Scheduler.tookOver (d : Option Frame) (now : Frame) (list : List ShadowRec) (sc : Scheduler) : Scheduler :=
  { sc with
    shadowList := [], overflow := false
    takeover := some ⟨d, now, sc.overflow, list.map fun r => (r.item, r.cue.slot)⟩ }

section
variable {env : Env} {d : Option Frame}

theorem Emit.mem_unshadowed {x : Entry} :
    x ∈ (m.unshadowed env).sched.armed ↔ ∃ e ∈ m.sched.armed, e.unshadowed = x := by
  rw [Emit.unshadowed, Emit.setArmed_armed, mem_sortEntries, List.mem_map]

theorem Emit.unshadowed_distinct (h : distinctNames m.sched.armed) : distinctNames (m.unshadowed env).sched.armed :=
  sortEntries_names.mpr ((map_names (g := Entry.unshadowed) fun _ => rfl).mpr h)

theorem Emit.tableSettled_besideTable (env : Env) (m : Emit) :
    (m.tableSettled env).sched.besideTable = m.sched.besideTable :=
  foldl_keeps (g := fun x : Emit => x.sched.besideTable) (Emit.takeEntry_besideTable env) _ _

theorem Emit.tableSettled_shadow_false : ∀ x ∈ (m.tableSettled env).sched.armed, x.flags.shadow = false := by
  refine Emit.foldl_sat (P := fun y => ∀ x ∈ y.sched.armed, x.flags.shadow = false)
    (fun _ _ h => Emit.takeEntry_shadow_false h) _ ?_
  intro x hx
  obtain ⟨e, -, rfl⟩ := Emit.mem_unshadowed.mp hx
  rfl

/-- A withheld FIRE is posted (R190): until its name comes, its entry stays as it stood. -/
theorem Emit.tableSettled_tells (hn : distinctNames m.sched.armed) {e : Entry} (he : e ∈ m.sched.armed)
    (hw : e.withheld = true) {f : Frame} (hf : e.fire = some f) :
    m.port.tells (m.tableSettled env).port ((e.unshadowed.takenOver env.now f).fireNotice f) := by
  have mem : e.unshadowed ∈ (m.unshadowed env).sched.armed := Emit.mem_unshadowed.mpr ⟨e, he, rfl⟩
  refine Emit.foldl_tells (P := fun x => distinctNames x.sched.armed ∧ e.unshadowed ∈ x.sched.armed)
    (Emit.takeEntry_grows env) ?keeps ?tells (List.mem_map_of_mem (f := Entry.key) mem) ⟨Emit.unshadowed_distinct hn, mem⟩
  case keeps =>
    rintro x k hk ⟨hn, hx⟩
    exact ⟨Emit.takeEntry_sat Emit.distinctNames_closed hn env k, Emit.takeEntry_other hx (Ne.symm hk)⟩
  case tells =>
    rintro x ⟨hn, hx⟩
    rw [Emit.takeEntry_withheld (Scheduler.find_of_mem hn hx) hw hf]
    exact Port.post_tells _ _

theorem Emit.tableSettled_silent (h : ∀ e ∈ m.sched.armed, e.withheld = false) : (m.tableSettled env).port = m.port := by
  have idle : m.tableSettled env = m.unshadowed env := Emit.foldl_idle fun k _ => Emit.takeEntry_idle fun x hx => by
    obtain ⟨e, he, rfl⟩ := Emit.mem_unshadowed.mp (Scheduler.find_mem hx).1
    exact .inl (h e he)
  rw [idle]
  rfl

theorem Emit.tableSettled_shadowList : (m.tableSettled env).sched.shadowList = m.sched.shadowList :=
  (congrArg Scheduler.shadowList (m.tableSettled_besideTable env) :)

theorem Emit.takeOver_port (env : Env) (d : Option Frame) (m : Emit) :
    (m.takeOver env d).port = (m.sched.shadowList.foldl (·.takeRecord env d ·) (m.tableSettled env)).port := by
  rw [← Emit.tableSettled_shadowList (env := env)]
  rfl

theorem Emit.takeOver_sched (env : Env) (d : Option Frame) (m : Emit) :
    (m.takeOver env d).sched = (m.tableSettled env).sched.tookOver d env.now m.sched.shadowList := by
  rw [← Emit.tableSettled_shadowList (env := env)]
  exact congrArg (Scheduler.tookOver d env.now _) (foldl_keeps (g := Emit.sched) (Emit.takeRecord_sched env d) _ _)

theorem Emit.takeOver_shadow_false : ∀ x ∈ (m.takeOver env d).sched.armed, x.flags.shadow = false := by
  rw [Emit.takeOver_sched]
  exact Emit.tableSettled_shadow_false

theorem Emit.takeOver_takeover (env : Env) (d : Option Frame) (m : Emit) : (m.takeOver env d).sched.takeover =
    some ⟨d, env.now, m.sched.overflow, m.sched.shadowList.map fun r => (r.item, r.cue.slot)⟩ := by
  have overflow : (m.tableSettled env).sched.overflow = m.sched.overflow :=
    (congrArg Scheduler.overflow (m.tableSettled_besideTable env) :)
  rw [Emit.takeOver_sched, ← overflow]
  rfl

/-- The resources and the histories of the groups stay: every entry has passed through its resource in SHADOW (R190). -/
theorem Emit.takeOver_resources (env : Env) (d : Option Frame) (m : Emit) :
    (m.takeOver env d).sched.resources = m.sched.resources ∧ (m.takeOver env d).sched.groups = m.sched.groups := by
  rw [Emit.takeOver_sched]
  exact ⟨(congrArg Scheduler.resources (m.tableSettled_besideTable env) :),
    (congrArg Scheduler.groups (m.tableSettled_besideTable env) :)⟩

theorem Emit.takeOver_tells_entry (d : Option Frame) (hn : distinctNames m.sched.armed) {e : Entry} (he : e ∈ m.sched.armed)
    (hw : e.withheld = true) {f : Frame} (hf : e.fire = some f) :
    m.port.tells (m.takeOver env d).port ((e.unshadowed.takenOver env.now f).fireNotice f) := by
  rw [Emit.takeOver_port]
  exact (Emit.tableSettled_tells hn he hw hf).later (Emit.foldl_grows (Emit.takeRecord_grows env d) _ _)

theorem Emit.takeOver_tells_record {r : ShadowRec} (hr : r ∈ m.sched.shadowList) (h : n ∈ r.notices env.now d) :
    m.port.tells (m.takeOver env d).port n := by
  rw [Emit.takeOver_port]
  exact Port.tells.sooner (Emit.foldl_grows (Emit.takeEntry_grows env) _ (m.unshadowed env))
    (Emit.foldl_tells (P := fun _ => True) (Emit.takeRecord_grows env d) (fun _ _ _ h => h)
      (fun m _ => Emit.takeRecord_tells h m) hr trivial)

/-- With no FIRE withheld and of no record anything to say, the settlement posts nothing. -/
theorem Emit.takeOver_silent (he : ∀ e ∈ m.sched.armed, e.withheld = false)
    (hr : ∀ r ∈ m.sched.shadowList, r.notices env.now d = []) : (m.takeOver env d).port = m.port := by
  have idle : m.sched.shadowList.foldl (·.takeRecord env d ·) (m.tableSettled env) = m.tableSettled env :=
    Emit.foldl_idle fun r h => by rw [Emit.takeRecord_posts, hr r h, List.foldl_nil]
  rw [Emit.takeOver_port, idle, Emit.tableSettled_silent he]

end

/-! ## The station that takes over -/

/-- The scheduler's part of a station that becomes ACTIVE, ROLE posted, as the settlement finds it (R186, R190). -/
def State.takingOver (s : State) (c : RoleCause) : Emit :=
  ⟨s.sched, s.out, s.port.post (.role .active s.pair.role c s.now s.config.partner s.partnerPresent s.partnerDone)⟩

/-- The scheduler's part of it, the settlement done. -/
def State.settled (s : State) (c : RoleCause) : Emit :=
  (s.takingOver c).takeOver { s.env with role := .active } s.partnerDone

theorem State.becomeActive_settled (s : State) (c : RoleCause) :
    (s.becomeActive c).sched = (s.settled c).sched ∧ (s.becomeActive c).port = (s.settled c).port := by
  have reads : SameBut [.store] _ (s.becomeActive c) := (State.wantReads_same (by simp)).mpr .self
  exact ⟨reads .sched (by decide), reads .port (by decide)⟩

theorem State.takingOver_grows (s : State) (c : RoleCause) : s.port.grows (s.takingOver c).port := s.port.post_grows _

section
variable {c : RoleCause} (told : t.port = (s.settled c).port)
include told

/-- A FIRE withheld is announced as it now stands (R190). -/
theorem State.settled_announces_entry (distinct : distinctNames s.sched.armed) {e : Entry} (he : e ∈ s.sched.armed)
    (hw : e.withheld = true) {f : Frame} (hf : e.fire = some f) :
    Announced s t ((e.unshadowed.takenOver s.now f).fireNotice f) :=
  Port.tells.announced (s.takingOver_grows c) (told ▸ Emit.takeOver_tells_entry s.partnerDone distinct he hw hf)

/-- So is what there is to say of a shadow record (R190). -/
theorem State.settled_announces_record {r : ShadowRec} (hr : r ∈ s.sched.shadowList)
    (h : n ∈ r.notices s.now s.partnerDone) : Announced s t n :=
  Port.tells.announced (s.takingOver_grows c) (told ▸ Emit.takeOver_tells_record hr h)

end

/-- Settles O51: the settlement of the table and of the shadow list, at the partner's YIELD. -/
theorem takeoverSettles : Obligations.TakeoverSettles := by
  intro s dt rx n b hears hp hn hs fit distinct
  have same : SameBut [.clock, .line, .store, .sched, .out, .pair, .port] s
      ((s.elapse dt).rxOver.becomeActive .yieldReceived).followLights := by simp
  have lights : SameBut [.out] ((s.elapse dt).rxOver.becomeActive .yieldReceived) _ :=
    (State.followLights_same (by simp)).mpr .self
  obtain ⟨sched, port⟩ := (s.elapse dt).rxOver.becomeActive_settled .yieldReceived
  replace sched := (lights .sched (by decide)).trans sched
  replace port := (lights .port (by decide)).trans port
  refine ⟨_, execReceiveYield_fit hp hn hs dt hears fit, ?_⟩
  rw [sched]
  refine ⟨rfl, rfl, Emit.takeOver_takeover _ _ _, same .live (by decide), (Emit.takeOver_resources _ _ _).1,
    (Emit.takeOver_resources _ _ _).2, Emit.takeOver_shadow_false, fun e he f hw hf => ?entry, fun r hr hd hm => ?record,
    fun he hr => ?silent⟩
  case entry =>
    have told := State.settled_announces_entry port distinct he hw hf
    refine ⟨if e.flags.deferred then some e.deferral else none, fun run => ?_, fun run => ?_⟩
    · rw [Entry.fireNotice_running run] at told
      exact told
    · rw [Entry.fireNotice_waiting run] at told
      exact ⟨_, told⟩
  case record =>
    have due := ShadowRec.notices_due (now := s.now) hd hm
    refine ⟨fun late => ⟨?_, fun x g hx hg => ?_⟩, fun late => ?_⟩
    · rw [if_pos late] at due
      exact State.settled_announces_record (s := (s.elapse dt).rxOver) port hr (due ▸ List.mem_cons_self)
    · rw [if_pos late] at due
      exact State.settled_announces_record (s := (s.elapse dt).rxOver) port hr (due ▸ ShadowRec.ended_mem_lateNotices hx hg)
    · rw [if_neg (by omega)] at due
      exact State.settled_announces_record (s := (s.elapse dt).rxOver) port hr (due ▸ List.mem_singleton_self _)
  case silent =>
    have quiet : ((s.elapse dt).rxOver.settled .yieldReceived).port = _ :=
      Emit.takeOver_silent he fun r h => ShadowRec.notices_done (hr r h)
    rw [port, quiet, State.takingOver, ← State.partnerPresent_peer hn, ← hn, ← hs]
    rfl

end Sys2Proof.Machine
end

section
/-! PROOFS. No command stops the part (O2). -/

namespace Sys2Proof.Machine

/-- Every command is carried out: with the light lines following at its end, or without them. -/
theorem exec_runs (c : Instr) (s : State) : Runs (exec c s) := by
  cases c
  case referencePulse | refLost | flywheelPulse | silence | acquireTimeout | holdoverExpired | warnPoint | expiryPoint |
      endingRecordDropped | peerAbsent | founded | askWaitExpires | askRetryExpires | gapTimeout | collision |
      transmissionComplete | scan | itemEndCancel | receiveOrderedMessage | receiveMark | receivePresence | receiveAsk |
      receiveReady | receiveRelay | receiveYield | receivePartOpening | receivePart | badReception | insert | delete | move |
      amend | addCue | dropCue | setOut | revive | standby | take | hold | resume | skip | close | freezeCopy | partRead |
      partWrite | shadowCheck | bankSwap | rearmRead | takeoverRead | projectionRead =>
    exact State.done_runs _
  case resetPin | resetEnd | recoveryEnds | shadowRecordsExpire | pipStarts | pipEnds | responseWaitExpires | yieldFailed |
      markCapture | transmitAttempt | backoffExpires | storeGrant | itemReadComplete | orderReadComplete | requestWrite |
      noticeRead | portStatusRead | portControlWrite | invalidTransfer | configure | restart | propose | standbyRequest |
      takeRequest | holdRequest | resumeRequest | skipRequest | closeRequest | yieldRequest | relayRequest | readItem |
      readOrder | readPeer | readTiming | readArmed | unknownRequest =>
    exact ⟨_, rfl⟩

/-- With no command waiting the part idles (log 4). -/
theorem step_idles {s : State} (h : s.pending = []) : step s = .next s := by
  rw [step, h]

/-- Settles O2: every command runs, and without one the state stays. -/
theorem nothingStops : Obligations.NothingStops :=
  ⟨exec_runs, fun _ => step_idles⟩

end Sys2Proof.Machine
end

section
/-! PROOFS. The requests that offer a message (O56, O57): the air requests, RELAY and YIELD, each offered or refused by the first
check that fails. -/

namespace Sys2Proof.Machine

variable {s : State} {f : List Byte}

/-! ## Offered or refused -/

/-- In RUN and not muted, a message may join a queue with a place free (R130). -/
theorem State.canOffer_free (hr : s.run = .run) (hm : s.line.muted = false) {m : OutMsg}
    (hl : (s.line.queue m.cls).length < m.cls.places) : s.canOffer m = true := by
  simp [State.canOffer, State.isRun, hr, hm, hl]

theorem State.canOffer_full {m : OutMsg} (hl : m.cls.places ≤ (s.line.queue m.cls).length) : s.canOffer m = false := by
  simp [State.canOffer, Nat.not_lt.mpr hl]

/-- With a place free the message of a request is offered (R195). -/
theorem State.offer_offered {m : OutMsg} (hc : s.canOffer m = true) (k : ReqKind) (d : RefuseDetail) :
    Offered s (s.offer k d m) m ∧ SameBut [.line, .port] s (s.offer k d m) := by
  have offers : s.offer k d m = (s.enqueue m).requestDone := if_pos hc
  refine ⟨?_, by simp⟩
  rw [offers]
  exact ⟨s.enqueue_queue m, rfl⟩

/-- Without one the request is refused (R204). -/
theorem State.offer_full {m : OutMsg} (hc : s.canOffer m = false) (k : ReqKind) (d : RefuseDetail) :
    s.offer k d m = s.refuse (some k) .queueFull d :=
  if_neg (by simp [hc])

/-! ## Air requests (R201) -/

/-- The message of an air request of kind `k` with the fields `f`, where they can be read (R201). -/
def State.airMessage (s : State) (f : List Byte) : ReqKind → Option AirMsg
  | .standby => (readId f).map .standby
  | .take => (readTake f).map fun x => .take x.1 (s.now + frames x.2.1) x.2.2
  | .hold => if f.isEmpty then some (.hold s.now) else none
  | .resume => if f.isEmpty then some (.resume s.now) else none
  | .skip => (readId f).map .skip
  | .close => if f.isEmpty then some (.close s.now) else none
  | .configure | .restart | .propose | .yield | .relay | .readItem | .readOrder | .readPeer | .readTiming | .readArmed => none

/-- The check that TAKE and HOLD make after their form (R201). -/
def State.timeChecks (s : State) (k : ReqKind) : List (Bool × RefuseReason) :=
  if k = .take ∨ k = .hold then [(s.usable, .notLocked)] else []

/-- What becomes of an air request of kind `k` with the fields `f`. -/
def State.airAnswer (s : State) (k : ReqKind) (f : List Byte) : State :=
  s.airRequest k (k.detail f) (s.timeChecks k) (s.airMessage f k)

/-- The six air requests, each with its command. -/
theorem airRows_eq : airRows = [(.standby, .standbyRequest), (.take, .takeRequest), (.hold, .holdRequest),
    (.resume, .resumeRequest), (.skip, .skipRequest), (.close, .closeRequest)] := rfl

/-- A property of the six holds where it holds of each. -/
theorem airRows_forall {P : ReqKind → Instr → Prop} (standby : P .standby .standbyRequest) (take : P .take .takeRequest)
    (hold : P .hold .holdRequest) (resume : P .resume .resumeRequest) (skip : P .skip .skipRequest)
    (close : P .close .closeRequest) {x : ReqKind × Instr} (hx : x ∈ airRows) : P x.1 x.2 := by
  simp only [airRows_eq, List.mem_cons, List.not_mem_nil, or_false] at hx
  obtain rfl | rfl | rfl | rfl | rfl | rfl := hx
  · exact standby
  · exact take
  · exact hold
  · exact resume
  · exact skip
  · exact close

/-- Each of the six is handled by its message, and by whether it needs usable gallery time. -/
theorem exec_airRow {x : ReqKind × Instr} (hx : x ∈ airRows) (s : State) :
    exec x.2 s = .next (s.handle x.1 fun f s => s.airAnswer x.1 f) :=
  airRows_forall (P := fun k c => exec c s = .next (s.handle k fun f s => s.airAnswer k f)) rfl rfl rfl rfl rfl rfl hx

theorem State.airMessage_readable {x : ReqKind × Instr} (hx : x ∈ airRows) (s : State) (f : List Byte) :
    (s.airMessage f x.1).isSome = x.1.readable f := by
  have bare : ∀ a : AirMsg, (if f.isEmpty then some a else none).isSome = f.isEmpty := fun a => by cases f <;> rfl
  exact airRows_forall (P := fun k _ => (s.airMessage f k).isSome = k.readable f) Option.isSome_map Option.isSome_map
    (bare _) (bare _) Option.isSome_map (bare _) hx

theorem exec_airRow_asked {x : ReqKind × Instr} (hx : x ∈ airRows) (h : s.asked x.1 f) :
    exec x.2 s = .next (s.airAnswer x.1 f) := by
  rw [exec_airRow hx, State.handle_asked h]

/-- The checks of an air request in their order, but the place that its message needs (R204). -/
def State.airVerdict (s : State) (k : ReqKind) (f : List Byte) : Option RefuseReason :=
  firstFailing (s.airChecks ++ [((s.airMessage f k).isSome, .badRequest)] ++ s.timeChecks k)

theorem State.airAnswer_refused {k : ReqKind} {r : RefuseReason} (h : s.airVerdict k f = some r) :
    s.airAnswer k f = s.refuse (some k) r (k.detail f) := by
  unfold State.airVerdict at h
  unfold State.airAnswer State.airRequest
  rw [h]

theorem State.airAnswer_offers {k : ReqKind} {a : AirMsg} (h : s.airVerdict k f = none) (ha : s.airMessage f k = some a) :
    s.airAnswer k f = s.offer k (k.detail f) (.air 0 a) := by
  unfold State.airVerdict at h
  unfold State.airAnswer State.airRequest
  rw [h, ha]

section
variable {k : ReqKind} (hr : s.run = .run)
include hr

theorem State.airVerdict_notDirector (hd : s.straps.directorCapable = false) : s.airVerdict k f = some .notDirector := by
  simp [State.airVerdict, State.airChecks, firstFailing, State.isRun, hr, hd]

variable (hd : s.straps.directorCapable = true)
include hd

theorem State.airVerdict_muted (hm : s.line.muted = true) : s.airVerdict k f = some .muted := by
  simp [State.airVerdict, State.airChecks, firstFailing, State.isRun, hr, hd, hm]

variable (hm : s.line.muted = false)
include hm

theorem State.airVerdict_notInStep (hs : s.sync.step ≠ .inStep) : s.airVerdict k f = some .notInStep := by
  simp [State.airVerdict, State.airChecks, firstFailing, State.isRun, hr, hd, hm, hs]

variable (hs : s.sync.step = .inStep)
include hs

/-- A director in step, not muted, judges the form and then the time (R201). -/
theorem State.airVerdict_formed : s.airVerdict k f =
    firstFailing (((s.airMessage f k).isSome, .badRequest) :: s.timeChecks k) := by
  simp [State.airVerdict, State.airChecks, firstFailing, State.isRun, hr, hd, hm, hs]

theorem State.airVerdict_unreadable (ha : (s.airMessage f k).isSome = false) : s.airVerdict k f = some .badRequest := by
  simp [State.airVerdict_formed hr hd hm hs, firstFailing, ha]

variable (ha : (s.airMessage f k).isSome = true)
include ha

theorem State.airVerdict_notLocked (hk : k = .take ∨ k = .hold) (hu : s.usable = false) :
    s.airVerdict k f = some .notLocked := by
  simp [State.airVerdict_formed hr hd hm hs, firstFailing, ha, State.timeChecks, hk, hu]

theorem State.airVerdict_passed (hu : k = .take ∨ k = .hold → s.usable = true) : s.airVerdict k f = none := by
  by_cases hk : k = .take ∨ k = .hold
  · simp [State.airVerdict_formed hr hd hm hs, firstFailing, ha, State.timeChecks, hk, hu hk]
  · simp [State.airVerdict_formed hr hd hm hs, firstFailing, ha, State.timeChecks, hk]

/-- With a place in the URGENT queue the air message is offered (R130, R201). -/
theorem State.airAnswer_offered (hu : k = .take ∨ k = .hold → s.usable = true) (hl : s.line.urgent.length < 4) {a : AirMsg}
    (message : s.airMessage f k = some a) :
    Offered s (s.airAnswer k f) (.air 0 a) ∧ SameBut [.line, .port] s (s.airAnswer k f) := by
  rw [State.airAnswer_offers (State.airVerdict_passed hr hd hm hs ha hu) message]
  exact State.offer_offered (State.canOffer_free (m := .air 0 a) hr hm hl) k _

/-- Without one the request is refused (R204). -/
theorem State.airAnswer_full (hu : k = .take ∨ k = .hold → s.usable = true) (hl : 4 ≤ s.line.urgent.length) :
    s.airAnswer k f = s.refuse (some k) .queueFull (k.detail f) := by
  obtain ⟨a, message⟩ := Option.isSome_iff_exists.mp ha
  rw [State.airAnswer_offers (State.airVerdict_passed hr hd hm hs ha hu) message]
  exact State.offer_full (State.canOffer_full (m := .air 0 a) hl) k _

end

/-- Settles O56: an air request whose message can be read is offered, and the first check that fails refuses. -/
theorem airRequestsOfferOrRefused : Obligations.AirRequestsOfferOrRefused := by
  refine ⟨fun s hd hm hs hl => ?offered, fun x hx s f h => ?refused⟩
  case offered =>
    have offered : ∀ x ∈ airRows, ∀ f a, s.asked x.1 f → s.airMessage f x.1 = some a →
        (x.1 = .take ∨ x.1 = .hold → s.usable = true) →
        ∃ t, exec x.2 s = .next t ∧ Offered s t (.air 0 a) ∧ SameBut [.line, .port] s t := fun x hx f a h ha hu =>
      ⟨_, exec_airRow_asked hx h, State.airAnswer_offered h.1 hd hm hs (by simp [ha]) hu hl ha⟩
    refine ⟨fun f id h hid => ?_, fun f id lead short h hf hu => ?_, fun h hu => ?_, fun h => ?_, fun f id h hid => ?_,
      fun h => ?_⟩
    · exact offered (.standby, .standbyRequest) (by decide) f _ h (by simp [State.airMessage, hid]) (by simp)
    · exact offered (.take, .takeRequest) (by decide) f _ h (by simp [State.airMessage, hf, frames]) fun _ => hu
    · exact offered (.hold, .holdRequest) (by decide) [] _ h rfl fun _ => hu
    · exact offered (.resume, .resumeRequest) (by decide) [] _ h rfl (by simp)
    · exact offered (.skip, .skipRequest) (by decide) f _ h (by simp [State.airMessage, hid]) (by simp)
    · exact offered (.close, .closeRequest) (by decide) [] _ h rfl (by simp)
  case refused =>
    have answer := exec_airRow_asked hx h
    have readable := State.airMessage_readable hx s f
    have refused : ∀ r, s.airAnswer x.1 f = s.refuse (some x.1) r (x.1.detail f) →
        ReqRefused s (s.airAnswer x.1 f) (some x.1) r (x.1.detail f) := fun r e => e ▸ s.refuse_reqRefused _ _ _
    refine ⟨_, answer, fun hd => ?_, fun hd hm => ?_, fun hd hm => ⟨fun hs => ?_, fun hs hf => ?_, fun hs hf hk hu => ?_,
      fun hs hf hu hl => ?_⟩⟩
    · exact refused _ (State.airAnswer_refused (State.airVerdict_notDirector h.1 hd))
    · exact refused _ (State.airAnswer_refused (State.airVerdict_muted h.1 hd hm))
    · exact refused _ (State.airAnswer_refused (State.airVerdict_notInStep h.1 hd hm hs))
    · exact refused _ (State.airAnswer_refused (State.airVerdict_unreadable h.1 hd hm hs (readable.trans hf)))
    · exact refused _ (State.airAnswer_refused (State.airVerdict_notLocked h.1 hd hm hs (readable.trans hf) hk hu))
    · exact refused _ (State.airAnswer_full h.1 hd hm hs (readable.trans hf) hu hl)

end Sys2Proof.Machine
end

section
/-! PROOFS. RELAY and YIELD requests (O57). -/

namespace Sys2Proof.Machine

variable {s t : State} {f : List Byte}

/-! ## RELAY (R202) -/

/-- The destinations of a RELAY: a station but this one, a group address, or all (R202). -/
def relayTakes (own : StationNo) (d : Byte) : Prop :=
  (d.toNat < 32 ∧ d.toNat ≠ own.val) ∨ (64 ≤ d.toNat ∧ d.toNat ≤ 127) ∨ d = 255

theorem readRelay_fits {own : StationNo} {d : Byte} {data : List Byte} (hd : relayTakes own d) (hmin : 1 ≤ data.length)
    (hmax : data.length ≤ 240) : readRelay own (d :: data) = some (d, data) := by
  refine if_pos ⟨?_, hmin, hmax⟩
  simpa [relayTakes, or_assoc] using hd

theorem readRelay_unfit {own : StationNo} {d : Byte} {data : List Byte}
    (h : ¬ relayTakes own d ∨ data = [] ∨ 240 < data.length) : readRelay own (d :: data) = none := by
  refine if_neg fun ⟨hd, hmin, hmax⟩ => ?_
  rcases h with h | rfl | h
  · exact h (by simpa [relayTakes, or_assoc] using hd)
  · cases hmin
  · omega

theorem not_relayTakes {own : StationNo} {d : Byte}
    (h : (32 ≤ d.toNat ∨ d.toNat = own.val) ∧ (d.toNat < 64 ∨ 127 < d.toNat) ∧ d ≠ 255) : ¬ relayTakes own d := by
  obtain ⟨station, group, all⟩ := h
  rintro (⟨_, _⟩ | ⟨_, _⟩ | rfl)
  · omega
  · omega
  · exact all rfl

theorem execRelay_muted (h : s.asked .relay f) (hm : s.line.muted = true) :
    exec .relayRequest s = .next (s.refuse (some .relay) .muted .none) := by
  refine congrArg Host.Outcome.next ((State.handle_asked h _).trans ?_)
  simp [firstFailing, State.isRun, h.1, hm]

theorem execRelay_fits (h : s.asked .relay f) (hm : s.line.muted = false) {d : Byte} {data : List Byte}
    (hf : readRelay s.straps.number f = some (d, data)) :
    exec .relayRequest s = .next (s.offer .relay .none (.relay d data)) := by
  refine congrArg Host.Outcome.next ((State.handle_asked h _).trans ?_)
  simp [firstFailing, State.isRun, h.1, hm, hf]

theorem execRelay_unfit (h : s.asked .relay f) (hm : s.line.muted = false) (hf : readRelay s.straps.number f = none) :
    exec .relayRequest s = .next (s.refuse (some .relay) .badRequest .none) := by
  refine congrArg Host.Outcome.next ((State.handle_asked h _).trans ?_)
  simp [firstFailing, State.isRun, h.1, hm, hf]

/-! ## YIELD (R184, R202) -/

/-- The checks of a YIELD request in their order, but the place that its message needs (R204). -/
def State.yieldVerdict (s : State) (f : List Byte) : Option RefuseReason :=
  firstFailing [(s.isRun, .notConfigured), (s.isPaired, .notPaired), (!s.line.muted, .muted),
    (decide (s.pair.role = .active), .notActive), (f.isEmpty && decide (s.pair.yield = .none), .badRequest)]

theorem execYield_refused (h : s.asked .yield f) {r : RefuseReason} (hv : s.yieldVerdict f = some r) :
    exec .yieldRequest s = .next (s.refuse (some .yield) r .none) := by
  refine congrArg Host.Outcome.next ((State.handle_asked h _).trans ?_)
  unfold State.yieldVerdict at hv
  simp only [hv]

theorem execYield_passed (h : s.asked .yield f) (hv : s.yieldVerdict f = none) :
    exec .yieldRequest s = .next s.yieldOffer := by
  refine congrArg Host.Outcome.next ((State.handle_asked h _).trans ?_)
  unfold State.yieldVerdict at hv
  simp only [hv]

section
variable (hr : s.run = .run)
include hr

theorem State.yieldVerdict_notPaired (hp : s.config.pairMode = .none) : s.yieldVerdict f = some .notPaired := by
  simp [State.yieldVerdict, firstFailing, State.isRun, State.isPaired, hr, hp]

variable (hp : s.config.pairMode ≠ .none)
include hp

theorem State.yieldVerdict_muted (hm : s.line.muted = true) : s.yieldVerdict f = some .muted := by
  simp [State.yieldVerdict, firstFailing, State.isRun, State.isPaired, hr, hp, hm]

variable (hm : s.line.muted = false)
include hm

theorem State.yieldVerdict_notActive (ha : s.pair.role ≠ .active) : s.yieldVerdict f = some .notActive := by
  simp [State.yieldVerdict, firstFailing, State.isRun, State.isPaired, hr, hp, hm, ha]

variable (ha : s.pair.role = .active)
include ha

theorem State.yieldVerdict_badRequest (hb : f ≠ [] ∨ s.pair.yield ≠ .none) : s.yieldVerdict f = some .badRequest := by
  have fails : (f.isEmpty && decide (s.pair.yield = .none)) = false := by
    rcases hb with h | h <;> simp [h]
  simp [State.yieldVerdict, firstFailing, State.isRun, State.isPaired, hr, hp, hm, ha, fails]

theorem State.yieldVerdict_passed (hy : s.pair.yield = .none) : s.yieldVerdict [] = none := by
  simp [State.yieldVerdict, firstFailing, State.isRun, State.isPaired, hr, hp, hm, ha, hy]

end

section
variable {p : StationNo} (hp : s.config.partner = some p)
include hp

/-- A YIELD with a place in its queue goes to the partner, and is then in course (R184). -/
theorem State.yieldOffer_offered (hc : s.canOffer (.yield p) = true) :
    Offered s s.yieldOffer (.yield p) ∧ s.yieldOffer.pair = { s.pair with yield := .queued } ∧
      SameBut [.line, .pair, .port] s s.yieldOffer := by
  have offers : s.yieldOffer = ((s.enqueue (.yield p)).modPair fun q => { q with yield := .queued }).requestDone := by
    simp [State.yieldOffer, hp, hc]
  refine ⟨?_, ?_, by simp⟩
  · rw [offers]
    exact ⟨s.enqueue_queue (.yield p), rfl⟩
  · rw [offers]
    rfl

theorem State.yieldOffer_full (hc : s.canOffer (.yield p) = false) :
    s.yieldOffer = s.refuse (some .yield) .queueFull .none := by
  simp [State.yieldOffer, hp, hc]

end

/-- A command that answers with a refusal leads to the state where the request is refused. -/
theorem ReqRefused.of_exec {c : Instr} {k : Option ReqKind} {r : RefuseReason} {d : RefuseDetail}
    (ht : exec c s = .next t) (h : exec c s = .next (s.refuse k r d)) : ReqRefused s t k r d := by
  obtain rfl : s.refuse k r d = t := Host.Outcome.next.inj (h.symm.trans ht)
  exact s.refuse_reqRefused k r d

/-- Settles O57: a RELAY by its destination and length, a YIELD by the first of its checks that fails. -/
theorem relayAndYieldRequests : Obligations.RelayAndYieldRequests := by
  intro s
  refine ⟨fun f h hm => ⟨_, execRelay_muted h hm, s.refuse_reqRefused _ _ _⟩, fun hm => ⟨fun d data h hd hmin hmax => ?offered,
    fun d data h hbad => ?unfit, fun h => ⟨_, execRelay_unfit h hm rfl, s.refuse_reqRefused _ _ _⟩⟩, fun f h => ?yield⟩
  case offered =>
    refine ⟨_, execRelay_fits h hm (readRelay_fits hd hmin hmax), fun hl => ?_, fun hl => ?_⟩
    · exact State.offer_offered (State.canOffer_free (m := .relay d data) h.1 hm hl) _ _
    · rw [State.offer_full (State.canOffer_full (m := .relay d data) hl)]
      exact s.refuse_reqRefused _ _ _
  case unfit =>
    exact ⟨_, execRelay_unfit h hm (readRelay_unfit (hbad.imp_left not_relayTakes)), s.refuse_reqRefused _ _ _⟩
  case yield =>
    obtain ⟨t, ht⟩ := exec_runs .yieldRequest s
    have refused : ∀ r, s.yieldVerdict f = some r → ReqRefused s t (some .yield) r .none := fun r hv =>
      .of_exec ht (execYield_refused h hv)
    refine ⟨t, ht, fun hp => refused _ (State.yieldVerdict_notPaired h.1 hp),
      fun hp hm => refused _ (State.yieldVerdict_muted h.1 hp hm),
      fun hp hm => ⟨fun ha => refused _ (State.yieldVerdict_notActive h.1 hp hm ha),
        fun ha hb => refused _ (State.yieldVerdict_badRequest h.1 hp hm ha hb), fun p ha hf hy hpartner => ?_⟩⟩
    subst hf
    have passed := execYield_passed h (State.yieldVerdict_passed h.1 hp hm ha hy)
    refine ⟨fun hl => ?_, fun hl => ?_⟩
    · obtain rfl : s.yieldOffer = t := Host.Outcome.next.inj (passed.symm.trans ht)
      exact State.yieldOffer_offered hpartner (State.canOffer_free (m := .yield p) h.1 hm hl)
    · rw [State.yieldOffer_full hpartner (State.canOffer_full (m := .yield p) hl)] at passed
      have gone : ReqRefused s t (some .yield) .queueFull .none := .of_exec ht passed
      exact ⟨gone, (congrArg Pair.yield (gone.1 .pair (by decide))).trans hy⟩

end Sys2Proof.Machine
end

section
/-! PROOFS. The transfers of the host port (O53): at one moment, in stretches, and ignored. -/

namespace Sys2Proof.Machine

variable {s : State}

/-! ## A transfer at one moment, its beginning and its end -/

theorem State.wholeTransfer_free (hr : s.run ≠ .reset) (ht : s.port.transfer = none) (f : Port → Port) :
    s.wholeTransfer f = { s with port := f s.port } := by
  simp [State.wholeTransfer, State.modPort, hr, ht]

/-- None comes within another (log 24). -/
theorem State.wholeTransfer_within_another (ht : s.port.transfer ≠ none) (f : Port → Port) : s.wholeTransfer f = s := by
  simp [State.wholeTransfer, State.modPort, Option.isSome_iff_ne_none.mpr ht]

theorem State.beginTransfer_free (hr : s.run ≠ .reset) (ht : s.port.transfer = none) (f : Port → Port) :
    s.beginTransfer f = { s with port := f s.port } := by
  simp [State.beginTransfer, State.modPort, hr, ht]

theorem State.beginTransfer_within_another (ht : s.port.transfer ≠ none) (f : Port → Port) : s.beginTransfer f = s := by
  simp [State.beginTransfer, State.modPort, Option.isSome_iff_ne_none.mpr ht]

/-- With no transfer in progress there is none to end. -/
theorem State.endTransfer_none (ht : s.port.transfer = none) (code : Byte) (f : Port → Port) : s.endTransfer code f = s := by
  simp [State.endTransfer, State.modPort, ht]

/-- The transfer of this location code ends, with its effect (R193). -/
theorem State.endTransfer_own (hr : s.run ≠ .reset) {x : Transfer} (ht : s.port.transfer = some x) {code : Byte}
    (hc : x.code = some code) (f : Port → Port) :
    s.endTransfer code f = { s with port := f (s.withTransfer none).port } := by
  have heeded : x ≠ .ignored := by rintro rfl; cases hc
  simp [State.endTransfer, State.modPort, State.withTransfer, hr, ht, hc, heeded]

/-- One ignored only ends (R206). -/
theorem State.endTransfer_ignored (ht : s.port.transfer = some .ignored) (code : Byte) (f : Port → Port) :
    s.endTransfer code f = s.withTransfer none := by
  simp [State.endTransfer, State.modPort, State.withTransfer, ht]

/-- A write acts at its end as at one moment (R194, R199). -/
theorem State.endTransfer_eq_whole (hr : s.run ≠ .reset) {x : Transfer} (ht : s.port.transfer = some x) {code : Byte}
    (hc : x.code = some code) (f : Port → Port) : s.endTransfer code f = (s.withTransfer none).wholeTransfer f := by
  rw [State.endTransfer_own hr ht hc]
  exact (State.wholeTransfer_free (s := s.withTransfer none) hr rfl f).symm

/-! ## Commands by the stretch they bring -/

/-- A command that begins a transfer does nothing but that. -/
theorem exec_begins {c : Instr} (h : beginsTransfer c = true) : ∃ f, exec c s = .next (s.beginTransfer f) := by
  unfold beginsTransfer at h
  split at h
  case h_1 | h_2 | h_3 => exact ⟨_, rfl⟩
  case h_4 => cases h

theorem exec_ends {c : Instr} (h : endsTransfer c = true) : ∃ code f, exec c s = .next (s.endTransfer code f) := by
  unfold endsTransfer at h
  split at h
  case h_1 | h_2 | h_3 | h_4 => exact ⟨_, _, rfl⟩
  case h_5 => cases h

theorem exec_whole {c : Instr} (h : wholeTransfers c = true) : ∃ f, exec c s = .next (s.wholeTransfer f) := by
  unfold wholeTransfers at h
  split at h
  case h_1 | h_2 | h_3 | h_4 => exact ⟨_, rfl⟩
  case h_5 => cases h

/-- None comes within another (log 24). -/
theorem exec_within_another {c : Instr} (ht : s.port.transfer ≠ none) (h : beginsTransfer c ∨ wholeTransfers c) :
    exec c s = .next s := by
  rcases h with h | h
  · obtain ⟨f, e⟩ := exec_begins (s := s) h
    rw [e, State.beginTransfer_within_another ht]
  · obtain ⟨f, e⟩ := exec_whole (s := s) h
    rw [e, State.wholeTransfer_within_another ht]

theorem exec_ends_ignored {c : Instr} (ht : s.port.transfer = some .ignored) (h : endsTransfer c) :
    exec c s = .next (s.withTransfer none) := by
  obtain ⟨code, f, e⟩ := exec_ends (s := s) h
  rw [e, State.endTransfer_ignored ht]

theorem exec_whole_reset {c : Instr} (hr : s.run = .reset) (h : wholeTransfers c) : exec c s = .next s := by
  obtain ⟨f, e⟩ := exec_whole (s := s) h
  rw [e, State.wholeTransfer_reset hr]

/-! ## Request writes -/

section
variable {p : Port} {n : Byte} {bytes : List Byte}

theorem Port.takeRequest_queued (hn : n.toNat ≤ bytes.length) (hp : p.requests.length < 4) :
    p.takeRequest n bytes = { p with requests := p.requests ++ [bytes.take n.toNat] } :=
  if_neg (by simp only [requestPlaces]; omega)

theorem Port.takeRequest_lost (h : bytes.length < n.toNat ∨ 4 ≤ p.requests.length) :
    p.takeRequest n bytes = { p with requestLost := true } :=
  if_pos h

end

/-- A request of no kind, or without its first byte, is refused (R204). -/
theorem execUnknown_refused (hr : s.run ≠ .reset) (hi : s.port.inHand = false) {r : List Byte} {q : List (List Byte)}
    (hq : s.port.requests = r :: q) (h : r = [] ∨ reqKind r = none) :
    exec .unknownRequest s = .next (s.refuse none .badRequest .none) := by
  have none : reqKind r = none := by
    rcases h with rfl | h
    · rfl
    · exact h
  refine congrArg Host.Outcome.next ?_
  simp [hr, hi, hq, none]

/-! ## Notice reads (R197) -/

section
variable {p : Port} {n : Notice} {rest : List Notice}

theorem Port.beginRead_urgent (h : p.urgent = n :: rest) :
    p.beginRead = { p with out := .notice n n.transfer, transfer := some (.notice true) } := by
  simp [Port.beginRead, h]

theorem Port.beginRead_routine (hu : p.urgent = []) (h : p.routine = n :: rest) :
    p.beginRead = { p with out := .notice n n.transfer, transfer := some (.notice false) } := by
  simp [Port.beginRead, hu, h]

theorem Port.beginRead_empty (hu : p.urgent = []) (h : p.routine = []) :
    p.beginRead = { p with out := .empty [0, 0], transfer := some .carried } := by
  simp [Port.beginRead, hu, h, nat16, le16]

/-- The notice leaves its queue at its last byte. -/
theorem Port.lastByte_notice {u : Bool} (h : p.transfer = some (.notice u)) : p.lastByte = { p with
    urgent := if u then p.urgent.tail else p.urgent
    routine := if u then p.routine else p.routine.tail
    transfer := some .carried } := by
  cases u <;> simp [Port.lastByte, h]

theorem Port.lastByte_other (h : ∀ u, p.transfer ≠ some (.notice u)) : p.lastByte = p := by
  unfold Port.lastByte
  split
  case h_1 e => exact absurd e (h true)
  case h_2 e => exact absurd e (h false)
  all_goals rfl

variable (ht : p.transfer = none) (toLast : Bool)
include ht

theorem Port.readNotice_urgent (h : p.urgent = n :: rest) : p.readNotice toLast =
    { p with out := .notice n n.transfer, urgent := if toLast then rest else n :: rest } := by
  cases toLast <;> simp [Port.readNotice, Port.beginRead_urgent h, Port.lastByte_notice, h, ht]

theorem Port.readNotice_routine (hu : p.urgent = []) (h : p.routine = n :: rest) : p.readNotice toLast =
    { p with out := .notice n n.transfer, routine := if toLast then rest else n :: rest } := by
  cases toLast <;> simp [Port.readNotice, Port.beginRead_routine hu h, Port.lastByte_notice (u := false), h, ht]

theorem Port.readNotice_empty (hu : p.urgent = []) (h : p.routine = []) :
    p.readNotice toLast = { p with out := .empty [0, 0] } := by
  cases toLast <;> simp [Port.readNotice, Port.beginRead_empty hu h, Port.lastByte_other, ht]

end

/-! ## A notice posted meanwhile (R196) -/

@[simp] theorem Port.post_transfer (p : Port) (m : Notice) : (p.post m).transfer = p.transfer := by
  unfold Port.post
  split <;> split <;> rfl

@[simp] theorem Port.post_out (p : Port) (m : Notice) : (p.post m).out = p.out := by
  unfold Port.post
  split <;> split <;> rfl

theorem head?_of_isPrefix {α : Type} {l k : List α} {a : α} (hp : l <+: k) (h : l.head? = some a) : k.head? = some a := by
  obtain ⟨r, rfl⟩ := hp
  simp [List.head?_append, h]

theorem Port.post_urgent_full {p : Port} {m : Notice} (hm : m.isUrgent = true) (h : 24 ≤ p.urgent.length) :
    p.post m = { p with urgentLost := true } := by
  simp [Port.post, hm, urgentPlaces, Nat.not_lt.mpr h]

theorem Port.post_routine_full {p : Port} {m : Notice} (hm : m.isUrgent = false) (h : 40 ≤ p.routine.length) :
    p.post m = { p with routineLost := true } := by
  simp [Port.post, hm, routinePlaces, Nat.not_lt.mpr h]

/-! ## Port status and the interrupt line (R198, R199) -/

theorem State.statusBytes_length (s : State) : s.statusBytes.length = 24 := rfl

theorem Port.interrupt_iff (p : Port) : p.interrupt = true ↔
    p.urgentEnable = true ∧ p.urgent ≠ [] ∨ p.routineEnable = true ∧ p.routine ≠ [] := by
  simp [Port.interrupt]

/-! ## The transfers, stage by stage -/

section
variable (hr : s.run ≠ .reset)
include hr

section
variable (ht : s.port.transfer = none)
include ht

/-- A command that comes to a transfer at one moment puts in place what that makes of the port. -/
theorem exec_whole_free {c : Instr} {f : Port → Port} {p : Port} (hc : exec c s = .next (s.wholeTransfer f))
    (hp : f s.port = p) : exec c s = .next { s with port := p } := by
  rw [hc, State.wholeTransfer_free hr ht, hp]

theorem exec_begins_free {c : Instr} {f : Port → Port} {p : Port} (hc : exec c s = .next (s.beginTransfer f))
    (hp : f s.port = p) : exec c s = .next { s with port := p } := by
  rw [hc, State.beginTransfer_free hr ht, hp]

end

/-- A transfer without an effect at its end only ends. -/
theorem exec_ends_own {c : Instr} {code : Byte} (hc : exec c s = .next (s.endTransfer code id)) {x : Transfer}
    (ht : s.port.transfer = some x) (hx : x.code = some code) : exec c s = .next (s.withTransfer none) := by
  rw [hc, State.endTransfer_own hr ht hx]
  rfl

end

theorem execNoticeRead_lastByte (s : State) :
    exec (.noticeRead .lastByte) s = .next { s with port := s.port.lastByte } := rfl

/-- Settles O53: each transfer by its stage and by what it makes of the port. -/
theorem portTransfers : Obligations.PortTransfers := by
  refine ⟨fun s hr ht => ⟨fun n bytes hn hp => ?queued, fun n bytes h => ?lost, fun toLast n rest h => ?readUrgent,
      fun toLast n rest hu h => ?readRoutine, fun toLast hu h => ?readEmpty, ?status, fun e => ?control,
      fun first rest => ?invalid, fun bytes => ?beginWrite, ?beginControl, fun n rest h => ?beginUrgent,
      fun n rest hu h => ?beginRoutine, fun hu h => ?beginEmpty⟩,
    fun s hr => ⟨fun n bytes ht => ?endWrite, fun e ht => ?endControl, fun u ht => ⟨?lastByte, ?endRead⟩,
      fun ht => ?endCarried, fun ht => ?lastByteOther, fun x first rest ht hx => ?endInvalid,
      fun c ht hc => exec_ends_ignored ht hc, fun c ht hc => exec_within_another ht hc,
      fun r q hi hq h => ⟨_, execUnknown_refused hr hi hq h, s.refuse_reqRefused _ _ _⟩⟩,
    fun s c hr hc => exec_whole_reset hr hc,
    fun p m => ⟨p.post_transfer m, p.post_out m, fun n => head?_of_isPrefix (p.post_grows m).1,
      fun n => head?_of_isPrefix (p.post_grows m).2.1, Port.post_urgent_full, Port.post_routine_full⟩,
    fun s => ⟨s.statusBytes_length, rfl, s.port.interrupt_iff⟩⟩
  case queued => exact exec_whole_free hr ht rfl (Port.takeRequest_queued hn hp)
  case lost => exact exec_whole_free hr ht rfl (Port.takeRequest_lost h)
  case readUrgent => exact exec_whole_free hr ht rfl (Port.readNotice_urgent ht toLast h)
  case readRoutine => exact exec_whole_free hr ht rfl (Port.readNotice_routine ht toLast hu h)
  case readEmpty => exact exec_whole_free hr ht rfl (Port.readNotice_empty ht toLast hu h)
  case status | control => exact exec_whole_free hr ht rfl rfl
  case invalid => exact congrArg Host.Outcome.next (State.endTransfer_none ht first id)
  case beginWrite | beginControl => exact exec_begins_free hr ht rfl rfl
  case beginUrgent => exact exec_begins_free hr ht rfl (Port.beginRead_urgent h)
  case beginRoutine => exact exec_begins_free hr ht rfl (Port.beginRead_routine hu h)
  case beginEmpty => exact exec_begins_free hr ht rfl (Port.beginRead_empty hu h)
  case endWrite | endControl => exact congrArg Host.Outcome.next (State.endTransfer_eq_whole hr ht rfl _)
  case lastByte => rw [execNoticeRead_lastByte, Port.lastByte_notice ht]
  case lastByteOther => rw [execNoticeRead_lastByte, Port.lastByte_other ht]
  case endRead | endCarried => exact exec_ends_own hr rfl ht rfl
  case endInvalid => exact exec_ends_own hr rfl ht hx

end Sys2Proof.Machine
end

section
/-! PROOFS. A step takes the command at the front (O1). -/

namespace Sys2Proof.Machine

theorem step_cons {s : State} {c : Instr} {rest : List Instr} (h : s.pending = c :: rest) :
    step s = exec c { s with pending := rest } := by
  simp only [step, h]

/-- Settles O1: the queue's head is what the step looks at. -/
theorem stepTakesFront : Obligations.StepTakesFront := fun _ _ _ => step_cons

end Sys2Proof.Machine
end

section
/-! PROOFS. Items and PRESENCE contents read from their own bytes (O60): each piece of a layout is read as what was written, and the
rest is left for the next piece. -/

namespace Sys2Proof.Machine

/-! ## Numbers -/

theorem byteOf_toNat {n : Nat} (h : n < 256) : (byteOf n).toNat = n := Nat.mod_eq_of_lt h

theorem le16_joined (x : Half) : x.extractLsb' 8 8 ++ x.extractLsb' 0 8 = x := by
  rw [BitVec.extractLsb'_append_extractLsb'_eq_extractLsb' (by rfl)]
  exact BitVec.extractLsb'_eq_self

theorem le24_joined (x : BitVec 24) : x.extractLsb' 16 8 ++ x.extractLsb' 8 8 ++ x.extractLsb' 0 8 = x := by
  rw [BitVec.extractLsb'_append_extractLsb'_eq_extractLsb' (by rfl),
    BitVec.extractLsb'_append_extractLsb'_eq_extractLsb' (by rfl)]
  exact BitVec.extractLsb'_eq_self

theorem le32_joined (x : Word) :
    x.extractLsb' 24 8 ++ x.extractLsb' 16 8 ++ x.extractLsb' 8 8 ++ x.extractLsb' 0 8 = x := by
  rw [BitVec.extractLsb'_append_extractLsb'_eq_extractLsb' (by rfl),
    BitVec.extractLsb'_append_extractLsb'_eq_extractLsb' (by rfl),
    BitVec.extractLsb'_append_extractLsb'_eq_extractLsb' (by rfl)]
  exact BitVec.extractLsb'_eq_self

theorem rd8_cons (b : Byte) (r : List Byte) : rd8 (b :: r) = some (b, r) := rfl

theorem rd16_le16 (x : Half) (r : List Byte) : rd16 (le16 x ++ r) = some (x, r) := by
  simp [rd16, le16, le16_joined]

theorem rd24_le24 (x : BitVec 24) (r : List Byte) : rd24 (le24 x ++ r) = some (x, r) := by
  simp [rd24, le24, le24_joined]

theorem rd32_le32 (x : Word) (r : List Byte) : rd32 (le32 x ++ r) = some (x, r) := by
  simp [rd32, le32, le32_joined]

theorem rdN_append (l r : List Byte) : rdN l.length (l ++ r) = some (l, r) := by
  simp [rdN]

/-- A reader that finds its piece hands it, with the rest, to the readers after it. -/
theorem reads_bind {α β : Type} {x : Option α} {a : α} (h : x = some a) (f : α → Option β) : (x >>= f) = f a := by
  rw [h]; rfl

/-! ## Five flags in a byte -/

/-- The byte whose lowest five bits are the flags given, as an item and a PRESENCE carry them. -/
def fiveFlags (a b c d e : Bool) : Byte :=
  (if a then 1 else 0) ||| (if b then 2 else 0) ||| (if c then 4 else 0) ||| (if d then 8 else 0) ||| (if e then 16 else 0)

section
variable (a b c d e : Bool)

theorem fiveFlags_bit0 : (fiveFlags a b c d e).getLsbD 0 = a := by revert a b c d e; decide
theorem fiveFlags_bit1 : (fiveFlags a b c d e).getLsbD 1 = b := by revert a b c d e; decide
theorem fiveFlags_bit2 : (fiveFlags a b c d e).getLsbD 2 = c := by revert a b c d e; decide
theorem fiveFlags_bit3 : (fiveFlags a b c d e).getLsbD 3 = d := by revert a b c d e; decide
theorem fiveFlags_bit4 : (fiveFlags a b c d e).getLsbD 4 = e := by revert a b c d e; decide

theorem fiveFlags_lt : (fiveFlags a b c d e).toNat < 32 := by revert a b c d e; decide
theorem fiveFlags_mod_four : (fiveFlags a b c d e).toNat % 4 = a.toNat + 2 * b.toNat := by revert a b c d e; decide

end

theorem fiveFlags_or_hard (h p q : Bool) :
    (if h then 4 else 0) ||| fiveFlags false false false p q = fiveFlags false false h p q := by revert h p q; decide

theorem fiveFlags_or_light (p q : Bool) : 1 ||| fiveFlags false false false p q = fiveFlags true false false p q := by
  revert p q; decide

/-! ## Codes -/

theorem PairMode.ofCode_code (m : PairMode) : PairMode.ofCode m.code = some m := by cases m <;> rfl
theorem Role.ofCode_code (r : Role) : Role.ofCode r.code = some r := by cases r <;> rfl
theorem StepState.ofCode_code (x : StepState) : StepState.ofCode x.code = some x := by cases x <;> rfl
theorem LockState.ofCode_code (x : LockState) : LockState.ofCode x.code = some x := by cases x <;> rfl

/-! ## PRESENCE (R152, R207) -/

/-- The partner byte: the number, or 255 beside pair mode NONE. -/
def Presence.partnerByte (p : Presence) : Byte := (p.partner.map fun n => byteOf n.val).getD 255

/-- The layout, each piece before the rest, in the order the reader takes them. -/
theorem Presence.bytes_eq (p : Presence) : p.bytes =
    fiveFlags p.timeCapable p.directorCapable p.referencePresent p.source p.sending :: p.pairMode.code :: p.partnerByte ::
      p.role.code :: p.step.code :: p.lock.code :: (le32 p.summary.version ++ (le32 p.summary.airCount ++
        (le32 p.summary.check ++ (boolByte p.doneThrough.isSome :: (le32 (p.doneThrough.getD 0) ++ []))))) := by
  cases hq : p.partner <;> simp [Presence.bytes, fiveFlags, Presence.partnerByte, optFrame, hq]

theorem Presence.partnerByte_reads {p : Presence} (hp : p.wf) :
    (if p.pairMode = .none then decide (p.partnerByte = 255) else decide (p.partnerByte.toNat < 32)) = true ∧
      (if p.pairMode = .none then none else some (Fin.ofNat 32 p.partnerByte.toNat)) = p.partner := by
  cases hq : p.partner with
  | none =>
    have hm : p.pairMode = .none := by simpa [Presence.wf, hq] using hp
    simp [hm, partnerByte, hq]
  | some n =>
    have hm : p.pairMode ≠ .none := by simpa [Presence.wf, hq] using hp
    have hn : (byteOf n.val).toNat = n.val := byteOf_toNat (by omega)
    simp [hm, partnerByte, hq, hn]

/-- A presence byte and a frame, zero where absent. -/
theorem optFrame_reads (o : Option Frame) :
    (boolByte o.isSome = 1 ∨ boolByte o.isSome = 0 ∧ o.getD 0 = 0) ∧
      (if boolByte o.isSome = 1 then some (o.getD 0) else none) = o := by
  cases o <;> simp [boolByte]

theorem readPresence_bytes {p : Presence} (hp : p.wf) : readPresence p.bytes = some p := by
  obtain ⟨hok, hpartner⟩ := Presence.partnerByte_reads hp
  obtain ⟨hpresent, hdone⟩ := optFrame_reads p.doneThrough
  unfold readPresence
  simp only [Presence.bytes_eq, ↓reads_bind (rd8_cons _ _), ↓reads_bind (rd32_le32 _ _),
    ↓reads_bind (PairMode.ofCode_code _), ↓reads_bind (Role.ofCode_code _), ↓reads_bind (StepState.ofCode_code _),
    ↓reads_bind (LockState.ofCode_code _)]
  rw [if_pos ⟨fiveFlags_lt .., hok, hpresent⟩]
  simp only [fiveFlags_bit0, fiveFlags_bit1, fiveFlags_bit2, fiveFlags_bit3, fiveFlags_bit4, hpartner, hdone]

/-! ## Lengths of a cue (R14) -/

/-- The length a cue carries, zero where it has none. -/
def Lengths.fullOf (l : Option Lengths) : Half := (l.map Lengths.full).getD 0

/-- The short length a cue carries, where it has one. -/
def Lengths.shortOf (l : Option Lengths) : Option Half := l.bind Lengths.short

theorem Lengths.bytes_eq (l : Option Lengths) : Lengths.bytes l = le16 (fullOf l) ++ le16 ((shortOf l).getD 0) := by
  cases l <;> rfl

theorem readLengths_carried {l : Option Lengths} (hl : ∀ x, l = some x → x.wf) :
    readLengths l.isSome (Lengths.shortOf l).isSome (Lengths.fullOf l) ((Lengths.shortOf l).getD 0) = some l := by
  match l with
  | none => rfl
  | some ⟨full, none⟩ =>
    obtain ⟨hfull, -⟩ := hl _ rfl
    simpa [readLengths, Lengths.shortOf, Lengths.fullOf] using hfull
  | some ⟨full, some short⟩ =>
    obtain ⟨hfull, hshort⟩ := hl _ rfl
    obtain ⟨hne, hle⟩ := hshort _ rfl
    have hnot : ¬ full < short := BitVec.not_lt.mpr hle
    simpa [readLengths, Lengths.shortOf, Lengths.fullOf, hnot] using And.intro hfull hne

/-! ## Cues (R13, R14, R208) -/

/-- The line byte of a cue: its resource or line, with the count of pips in the high half. -/
def CueBody.lineByte : CueBody → Byte
  | .fire r _ _ => byteOf r.val
  | .light n _ => byteOf n.val
  | .pips n k => byteOf (n.val + 16 * k)
  | .marker => 0

def CueBody.lengths : CueBody → Option Lengths
  | .fire _ _ l | .light _ l => l
  | .pips _ _ | .marker => none

def CueBody.hard : CueBody → Bool
  | .fire _ h _ => h
  | .light _ _ | .pips _ _ | .marker => false

/-- Bits 0 and 1 of the kind byte. -/
def CueBody.kindBits : CueBody → Bool × Bool
  | .fire _ _ _ => (false, false)
  | .light _ _ => (true, false)
  | .pips _ _ => (false, true)
  | .marker => (true, true)

/-- The kind byte of a cue: its kind, whether it is hard, and what lengths it has. -/
def CueBody.kindByte (b : CueBody) : Byte :=
  fiveFlags b.kindBits.1 b.kindBits.2 b.hard b.lengths.isSome (Lengths.shortOf b.lengths).isSome

theorem Lengths.bits_eq (l : Option Lengths) : bits l = fiveFlags false false false l.isSome (shortOf l).isSome := by
  match l with
  | none => decide
  | some ⟨_, none⟩ | some ⟨_, some _⟩ => simp [bits, shortOf, fiveFlags]

theorem CueBody.kindByte_pips (n : Fin 2) (k : Nat) : (pips n k).kindByte = 2 :=
  show fiveFlags false true false false false = 2 by decide

theorem CueBody.kindByte_marker : marker.kindByte = 3 := by decide

theorem Lengths.bytes_absent : [0, 0, 0, 0] = le16 (fullOf none) ++ le16 ((shortOf none).getD 0) := Lengths.bytes_eq none

theorem Cue.bytes_eq (c : Cue) : c.bytes = byteOf c.slot.val :: byteOf c.owner.val :: c.body.kindByte ::
    (le16 c.offset ++ c.body.lineByte :: (le16 (Lengths.fullOf c.body.lengths) ++
      (le16 ((Lengths.shortOf c.body.lengths).getD 0) ++ le16 c.param))) := by
  obtain ⟨slot, owner, body, offset, param⟩ := c
  cases body with
  | fire r h l =>
    simp only [Cue.bytes, Lengths.bits_eq, fiveFlags_or_hard, Lengths.bytes_eq, List.append_assoc]
    rfl
  | light n l =>
    simp only [Cue.bytes, Lengths.bits_eq, fiveFlags_or_light, Lengths.bytes_eq, List.append_assoc]
    rfl
  | pips n k =>
    simp only [Cue.bytes, CueBody.kindByte_pips, Lengths.bytes_absent, List.append_assoc]
    rfl
  | marker =>
    simp only [Cue.bytes, CueBody.kindByte_marker, Lengths.bytes_absent, List.append_assoc]
    rfl

theorem Cue.bytes_length (c : Cue) : c.bytes.length = 12 := by
  simp [Cue.bytes_eq, le16]

theorem CueBody.lengths_wf {b : CueBody} (hb : b.wf) : ∀ x, b.lengths = some x → x.wf := by
  cases b with
  | fire _ _ _ | light _ _ => exact hb
  | pips _ _ | marker => rintro _ ⟨⟩

/-- From the bytes of a body its kind, its flag and its lengths are read; then the kind reads its line byte. -/
theorem readBody_written {b : CueBody} (hb : b.wf) :
    readBody b.kindByte b.lineByte (Lengths.fullOf b.lengths) ((Lengths.shortOf b.lengths).getD 0) = some b := by
  have hlt : ¬ b.kindByte.toNat ≥ 32 := Nat.not_le.mpr (fiveFlags_lt ..)
  simp only [readBody, if_neg hlt]
  simp only [CueBody.kindByte, fiveFlags_bit2, fiveFlags_bit3, fiveFlags_bit4, fiveFlags_mod_four,
    readLengths_carried (CueBody.lengths_wf hb)]
  cases b with
  | fire r h l =>
    have hline : (byteOf r.val).toNat = r.val := byteOf_toNat (by omega)
    simp [CueBody.kindBits, CueBody.hard, CueBody.lengths, CueBody.lineByte, hline, Nat.mod_eq_of_lt r.isLt]
  | light n l =>
    have hline : (byteOf n.val).toNat = n.val := byteOf_toNat (by omega)
    have hn : n.val < 16 := by omega
    simp [CueBody.kindBits, CueBody.hard, CueBody.lengths, CueBody.lineByte, hline, Nat.div_eq_of_lt hn,
      Nat.mod_eq_of_lt hn]
  | pips n k =>
    obtain ⟨hone, hten⟩ := hb
    have hline : (byteOf (n.val + 16 * k)).toNat = n.val + 16 * k := byteOf_toNat (by omega)
    have hlow : (n.val + 16 * k) % 16 = n.val := by omega
    have hhigh : (n.val + 16 * k) / 16 = k := by omega
    have hzero : k ≠ 0 := by omega
    have hn : n.val ≤ 1 := by omega
    simp [CueBody.kindBits, CueBody.hard, CueBody.lengths, CueBody.lineByte, hline, hlow, hhigh, hzero, hn,
      Nat.not_lt.mpr hten]
  | marker => rfl

theorem readCue_bytes {c : Cue} (hc : c.body.wf) : readCue c.bytes = some c := by
  have hslot : (byteOf c.slot.val).toNat = c.slot.val := byteOf_toNat (by omega)
  have howner : (byteOf c.owner.val).toNat = c.owner.val := byteOf_toNat (by omega)
  have hbody := readBody_written hc
  simp only [Cue.bytes_eq, le16, List.cons_append, List.nil_append, readCue, le16_joined, hslot, howner, hbody]
  simp

theorem cutCues_bytes (cs : List Cue) : cutCues cs.length (cs.flatMap Cue.bytes) = cs.map Cue.bytes := by
  induction cs with
  | nil => rfl
  | cons c cs ih => simp [cutCues, List.take_left' c.bytes_length, List.drop_left' c.bytes_length, ih]

theorem readCues_bytes {cs : List Cue} (hcs : ∀ c ∈ cs, c.body.wf) : readCues (cs.map Cue.bytes) = some cs := by
  induction cs with
  | nil => rfl
  | cons c cs ih =>
    obtain ⟨hc, hrest⟩ := List.forall_mem_cons.mp hcs
    simp [readCues, readCue_bytes hc, ih hrest]

theorem flatMap_bytes_length (cs : List Cue) : (cs.flatMap Cue.bytes).length = 12 * cs.length := by
  simp [List.length_flatMap, Cue.bytes_length, Nat.mul_comm]

/-! ## Items (R9 to R11, R208) -/

theorem readStatus_fields {x : ItemStatus} (hx : x.wf) {st : Byte} {start hold heldAt endF actual : Word} {taken : Bool}
    (hf : x.fields = (st, start, hold, heldAt, endF, actual, taken)) :
    readStatus st taken start hold heldAt endF actual = some x := by
  cases x with
  | pending | standingBy | skipped => cases hf; rfl
  | onAir a =>
    obtain ⟨begun, short, total, held⟩ := a
    have htotal : total.toNat ≤ maxSpan := hx
    cases held <;> cases hf <;> simp [readStatus, htotal]
  | done s t h e d =>
    obtain ⟨hhold, hone, hactual⟩ := hx
    cases hf
    simp [readStatus, hhold, hone, hactual]

/-- The layout, each piece before the rest, in the order the reader takes them. -/
theorem Item.bytes_eq (i : Item) {st : Byte} {start hold heldAt endF actual : Word} {taken : Bool}
    (hf : i.status.fields = (st, start, hold, heldAt, endF, actual, taken)) :
    i.bytes = le16 i.id ++ (byteOf i.slug.length :: (i.slug ++ (le24 i.planned ++ (le24 (i.short.getD 0) ++
      (fiveFlags i.float i.fixed i.planShort i.short.isSome taken :: st :: (le32 start ++ (le32 hold ++ (le32 heldAt ++
        (le32 endF ++ (le32 actual ++ (byteOf i.cues.length :: i.cues.flatMap Cue.bytes))))))))))) := by
  simp [Item.bytes, hf, fiveFlags]

theorem slugOk_length {s : List Byte} (h : slugOk s = true) : s.length ≤ 24 := by
  simp only [slugOk, Bool.and_eq_true, decide_eq_true_eq] at h
  obtain ⟨⟨-, hmost⟩, -⟩ := h
  exact hmost

theorem optShort_reads (o : Option (BitVec 24)) :
    (o.isSome = true ∨ o.getD 0 = 0) ∧ (if o.isSome then some (o.getD 0) else none) = o := by
  cases o <;> simp

theorem readItem_bytes {i : Item} (hi : i.wf) : readItem i.bytes = some i := by
  obtain ⟨hslug, hmany, hascend, hcues, hstatus⟩ := hi
  rcases hf : i.status.fields with ⟨st, start, hold, heldAt, endF, actual, taken⟩
  have hslugLen : (byteOf i.slug.length).toNat = i.slug.length := byteOf_toNat (by have := slugOk_length hslug; omega)
  have hcount : (byteOf i.cues.length).toNat = i.cues.length := byteOf_toNat (by simp only [maxItemCues] at hmany; omega)
  obtain ⟨hzero, hshort⟩ := optShort_reads i.short
  unfold readItem
  simp only [Item.bytes_eq i hf, hslugLen, hcount, cutCues_bytes, ↓reads_bind (rd8_cons _ _), ↓reads_bind (rd16_le16 _ _),
    ↓reads_bind (rd24_le24 _ _), ↓reads_bind (rd32_le32 _ _), ↓reads_bind (rdN_append _ _),
    ↓reads_bind (readCues_bytes hcues)]
  simp only [fiveFlags_bit0, fiveFlags_bit1, fiveFlags_bit2, fiveFlags_bit3, fiveFlags_bit4, hshort]
  rw [reads_bind (readStatus_fields hstatus hf),
    if_pos ⟨hslug, fiveFlags_lt .., hzero, hmany, flatMap_bytes_length i.cues, hascend⟩]

/-- Settles O60: an item field by field with its cues, a PRESENCE field by field. -/
theorem itemAndPresenceRoundTrip : Obligations.ItemAndPresenceRoundTrip :=
  ⟨fun _ => readItem_bytes, fun _ => readPresence_bytes⟩

end Sys2Proof.Machine
end
